-- ==== Sys2Proof/Word.lean ====
section
/-! DEFINITION. The word types of TDRC: the 32-bit request and data word (R6 `W_REQ`, `W_DATA`) and the byte. -/

namespace Sys2Proof

/-- A request word or a data word (R6: `W_REQ` and `W_DATA` are 32 bits). -/
abbrev Word := BitVec 32

/-- A device byte or an operand byte. -/
abbrev Byte := BitVec 8

end Sys2Proof
end

