-- ==== Sys2Proof/Syntax.lean ====
section
/-! DEFINITION. The operations of TDRC (R2) as terms, the request word's fields (R46), the status codes (R96), the
names of R59 and R60, and the assembler's lines (R66). -/

namespace Sys2Proof

/-- The five operations, one constructor per row of the opcode table. Each operand has exactly the width of its
field, so no operand of a term can fail to fit (R49 to R53). -/
inductive Instr where
  /-- BUILD_CR0 (R49, R67): `ONE_SHOT = B0[1]`, `F50 = B0[0]`; a Boolean input is one bit (R13). -/
  | buildCr0 (oneShot f50 : Bool)
  /-- BUILD_CR1 (R50, R71): `AVG_SEL = B0`, `TC_TYPE = B1[3:0]`. -/
  | buildCr1 (avgSel : BitVec 8) (tcType : BitVec 4)
  /-- DECODE_FAULT (R51, R75): `SR = B0`. -/
  | decodeFault (sr : Byte)
  /-- DECODE_CJ (R52, R81): `offset = B0`, `msb = B1`, `lsb = B2`. -/
  | decodeCj (offset msb lsb : Byte)
  /-- DECODE_TC (R53, R88): `high = B0`, `mid = B1`, `low = B2`. -/
  | decodeTc (high mid low : Byte)
  deriving DecidableEq, Repr

/-- The operation an OP field selects (R47). -/
inductive Opcode where
  | buildCr0 | buildCr1 | decodeFault | decodeCj | decodeTc
  deriving DecidableEq, Repr

/-- The fields of a request word (R46), most significant first. -/
structure Fields where
  /-- `OP`, bits 31:28. -/
  op : BitVec 4
  /-- `CNT`, bits 27:26. -/
  cnt : BitVec 2
  /-- `RSV`, bits 25:24. -/
  rsv : BitVec 2
  /-- `B0`, bits 23:16. -/
  b0 : Byte
  /-- `B1`, bits 15:8. -/
  b1 : Byte
  /-- `B2`, bits 7:0. -/
  b2 : Byte
  deriving DecidableEq, Repr

/-- The response status codes by name (R96). -/
inductive Status where
  | ok | illegalOp | length | reservedField
  deriving DecidableEq, Repr

/-- The eight thermocouple types (R59). -/
inductive ThermocoupleType where
  | B | E | J | K | N | R | S | T
  deriving DecidableEq, Repr

/-- The eight fault kinds (R60). -/
inductive FaultKind where
  | thermocoupleOpenCircuit | overUnderVoltage | thermocoupleLow | thermocoupleHigh
  | coldJunctionLow | coldJunctionHigh | thermocoupleOutOfRange | coldJunctionOutOfRange
  deriving DecidableEq, Repr

/-- The `type=` argument of an assembler line: a type letter or a number (R66). -/
inductive TypeArg where
  | letter (t : ThermocoupleType)
  | number (n : Nat)
  deriving DecidableEq, Repr

/-- A line of the assembler (R66), its numbers as they are written: a number may be too large for its field, which
`AsmLine.wf` checks. -/
inductive AsmLine where
  /-- `BUILD_CR0 one_shot=<0|1>, f50=<0|1>`. -/
  | buildCr0 (oneShot f50 : Nat)
  /-- `BUILD_CR1 avg=<0..255>, type=<letter or 0..15>`. -/
  | buildCr1 (avg : Nat) (type : TypeArg)
  /-- `DECODE_FAULT <byte>`. -/
  | decodeFault (byte : Nat)
  /-- `DECODE_CJ <offset>, <msb>, <lsb>`. -/
  | decodeCj (offset msb lsb : Nat)
  /-- `DECODE_TC <high>, <mid>, <low>`. -/
  | decodeTc (high mid low : Nat)
  /-- `.word <32-bit value>`: any word, reserved encodings included. -/
  | word (value : Nat)
  deriving DecidableEq, Repr

end Sys2Proof
end

