-- ==== Sys2Proof/WellFormed.lean ====
section
/-! DEFINITION. Well-formedness. A term of `Instr` is well formed by its types: each operand has the width of its
field. What can be ill formed is a written line, whose numbers may lie outside the ranges of R66; `AsmLine.wf` checks
them, one named check per kind of argument. (A request WORD that spells no operation is the decoder's to reject.) -/

namespace Sys2Proof

/-- `<0|1>`: a Boolean argument is one bit (R13, R66). -/
def WellFormed.bit (n : Nat) : Bool := decide (n < 2)

/-- A byte argument (R66). -/
def WellFormed.byte (n : Nat) : Bool := decide (n < 256)

/-- `type=`: every letter has a code, a number must lie in 0..15 (R66). -/
def WellFormed.typeArg : TypeArg → Bool
  | .letter _ => true
  | .number n => decide (n < 16)

/-- `.word` takes a 32-bit value (R66). -/
def WellFormed.word (n : Nat) : Bool := decide (n < 2 ^ 32)

/-- A line whose arguments all lie in the ranges of R66. -/
def AsmLine.wf : AsmLine → Bool
  | .buildCr0 oneShot f50 => WellFormed.bit oneShot && WellFormed.bit f50
  | .buildCr1 avg type => WellFormed.byte avg && WellFormed.typeArg type
  | .decodeFault b => WellFormed.byte b
  | .decodeCj o m l => WellFormed.byte o && WellFormed.byte m && WellFormed.byte l
  | .decodeTc h m l => WellFormed.byte h && WellFormed.byte m && WellFormed.byte l
  | .word w => WellFormed.word w

end Sys2Proof
end

