-- ==== Sys2Proof/Decode.lean ====
section
/-! DEFINITION. Request decoding (R45 to R55, R64), total on every word and rejecting by status name; after it the
encoder, the opcode table as rows of mask and match, and the assembler (R66). -/

namespace Sys2Proof

/-! ## Codes -/

/-- The 2-bit code of a status (R96). -/
def Status.code : Status → BitVec 2
  | .ok => 0b00
  | .illegalOp => 0b01
  | .length => 0b10
  | .reservedField => 0b11

/-- The status a 2-bit code names: "Every 2-bit value is a defined code" (R96). -/
def Status.ofCode (c : BitVec 2) : Status :=
  if c = 0b00 then .ok else if c = 0b01 then .illegalOp else if c = 0b10 then .length else .reservedField

/-- The OP value of an operation (R47). -/
def Opcode.code : Opcode → BitVec 4
  | .buildCr0 => 0x1
  | .buildCr1 => 0x2
  | .decodeFault => 0x3
  | .decodeCj => 0x4
  | .decodeTc => 0x5

/-- The operation an OP value selects; `none` for 0x0 and 0x6 to 0xF, which are reserved (R47). -/
def Opcode.ofCode (c : BitVec 4) : Option Opcode :=
  if c = 0x1 then some .buildCr0
  else if c = 0x2 then some .buildCr1
  else if c = 0x3 then some .decodeFault
  else if c = 0x4 then some .decodeCj
  else if c = 0x5 then some .decodeTc
  else none

/-- The operand count an operation requires (R47, R48). -/
def Opcode.requiredCnt : Opcode → BitVec 2
  | .buildCr0 => 1
  | .buildCr1 => 2
  | .decodeFault => 1
  | .decodeCj => 3
  | .decodeTc => 3

/-- The reserved bits of an operation's request word, 1 = reserved (R54). -/
def Opcode.reservedMask : Opcode → Word
  | .buildCr0 => 0x03FCFFFF
  | .buildCr1 => 0x0300F0FF
  | .decodeFault => 0x0300FFFF
  | .decodeCj => 0x03000000
  | .decodeTc => 0x03000000

/-- The 4-bit code of a thermocouple type (R59, decision D13). -/
def ThermocoupleType.code : ThermocoupleType → BitVec 4
  | .B => 0x0
  | .E => 0x1
  | .J => 0x2
  | .K => 0x3
  | .N => 0x4
  | .R => 0x5
  | .S => 0x6
  | .T => 0x7

/-- The type a code names; codes 0x8 to 0xF name none (R59). -/
def ThermocoupleType.ofCode (c : BitVec 4) : Option ThermocoupleType :=
  [ThermocoupleType.B, .E, .J, .K, .N, .R, .S, .T].find? (fun t => t.code == c)

/-! ## Fields of a word -/

/-- The fields of a request word (R46). -/
def Fields.ofWord (req : Word) : Fields where
  op := req.extractLsb' 28 4
  cnt := req.extractLsb' 26 2
  rsv := req.extractLsb' 24 2
  b0 := req.extractLsb' 16 8
  b1 := req.extractLsb' 8 8
  b2 := req.extractLsb' 0 8

/-- `REQ = {OP, CNT, RSV, B0, B1, B2}` (R46). -/
def Fields.toWord (f : Fields) : Word :=
  f.op ++ f.cnt ++ f.rsv ++ f.b0 ++ f.b1 ++ f.b2

/-! ## Decoding -/

/-- What a request word is: an operation, or a status it is refused with (R55). -/
inductive Classified where
  | op (o : Opcode)
  | rejected (st : Status)
  deriving DecidableEq, Repr

/-- `classify` (R55): the three checks in the order of R100. -/
def classify (req : Word) : Classified :=
  match Opcode.ofCode (Fields.ofWord req).op with
  | none => .rejected .illegalOp
  | some o =>
    if (Fields.ofWord req).cnt ≠ o.requiredCnt then .rejected .length
    else if req &&& o.reservedMask ≠ 0 then .rejected .reservedField
    else .op o

/-- The decoder's answer: an instruction, or the status the word is refused with. -/
inductive Decoded where
  | instr (i : Instr)
  | rejected (st : Status)
  deriving DecidableEq, Repr

/-- The operands of an operation, taken from the operand bytes (R49 to R53). -/
def Opcode.operands (o : Opcode) (f : Fields) : Instr :=
  match o with
  | .buildCr0 => .buildCr0 (f.b0.getLsbD 1) (f.b0.getLsbD 0)
  | .buildCr1 => .buildCr1 f.b0 (f.b1.extractLsb' 0 4)
  | .decodeFault => .decodeFault f.b0
  | .decodeCj => .decodeCj f.b0 f.b1 f.b2
  | .decodeTc => .decodeTc f.b0 f.b1 f.b2

/-- The decoder: total on every 32-bit word (R55). -/
def decode (req : Word) : Decoded :=
  match classify req with
  | .op o => .instr (o.operands (Fields.ofWord req))
  | .rejected st => .rejected st

/-- The host's view of the decoder: the instruction of the low `nbits` bits of `w`, bits above zero. -/
def decodeTableWord (nbits w : Nat) : Option Instr :=
  match decode (BitVec.ofNat 32 (w % 2 ^ nbits)) with
  | .instr i => some i
  | .rejected _ => none

/-! ## Encoding -/

/-- The operation an instruction belongs to. -/
def Instr.opcode : Instr → Opcode
  | .buildCr0 _ _ => .buildCr0
  | .buildCr1 _ _ => .buildCr1
  | .decodeFault _ => .decodeFault
  | .decodeCj _ _ _ => .decodeCj
  | .decodeTc _ _ _ => .decodeTc

/-- The request of an operation with three operand bytes: OP and the required CNT, `RSV` zero (R46, R48, R54). -/
def Opcode.request (o : Opcode) (b0 b1 b2 : Byte) : Fields :=
  ⟨o.code, o.requiredCnt, 0, b0, b1, b2⟩

/-- The encoder, from the encodings of R49 to R53; every reserved bit 0. -/
def encode : Instr → Word
  | .buildCr0 oneShot f50 =>
    (Opcode.buildCr0.request (0#6 ++ BitVec.ofBool oneShot ++ BitVec.ofBool f50) 0 0).toWord
  | .buildCr1 avgSel tcType => (Opcode.buildCr1.request avgSel (0#4 ++ tcType) 0).toWord
  | .decodeFault sr => (Opcode.decodeFault.request sr 0 0).toWord
  | .decodeCj offset msb lsb => (Opcode.decodeCj.request offset msb lsb).toWord
  | .decodeTc high mid low => (Opcode.decodeTc.request high mid low).toWord

/-! ## The opcode table -/

/-- A row of the opcode table: the operation, its mask and its match. -/
structure Row where
  opcode : Opcode
  mask : Word
  matchBits : Word
  deriving DecidableEq, Repr

/-- `opcode_table.json`, in the order of the table (R67, R71, R75, R81, R88 give the same numbers). -/
def opcodeTable : List Row :=
  [⟨.buildCr0, 0xFFFCFFFF, 0x14000000⟩,
   ⟨.buildCr1, 0xFF00F0FF, 0x28000000⟩,
   ⟨.decodeFault, 0xFF00FFFF, 0x34000000⟩,
   ⟨.decodeCj, 0xFF000000, 0x4C000000⟩,
   ⟨.decodeTc, 0xFF000000, 0x5C000000⟩]

/-- A word matches a row when its masked bits are the row's match. -/
def Row.hits (r : Row) (req : Word) : Bool := req &&& r.mask == r.matchBits

/-! ## The assembler -/

/-- The code a `type=` argument assembles to (R66: "A type letter assembles to its code of rule R59"). -/
def TypeArg.code : TypeArg → BitVec 4
  | .letter t => t.code
  | .number n => BitVec.ofNat 4 n

/-- The instruction a line spells; `.word` spells a word, not an instruction (R66). -/
def AsmLine.instr : AsmLine → Option Instr
  | .buildCr0 oneShot f50 => some (.buildCr0 (oneShot == 1) (f50 == 1))
  | .buildCr1 avg type => some (.buildCr1 (BitVec.ofNat 8 avg) type.code)
  | .decodeFault b => some (.decodeFault (BitVec.ofNat 8 b))
  | .decodeCj o m l => some (.decodeCj (BitVec.ofNat 8 o) (BitVec.ofNat 8 m) (BitVec.ofNat 8 l))
  | .decodeTc h m l => some (.decodeTc (BitVec.ofNat 8 h) (BitVec.ofNat 8 m) (BitVec.ofNat 8 l))
  | .word _ => none

/-- The word a line assembles to, `none` for a line outside the ranges of R66. -/
def AsmLine.assemble (l : AsmLine) : Option Word :=
  if l.wf then
    match l with
    | .word w => some (BitVec.ofNat 32 w)
    | l => l.instr.map encode
  else none

end Sys2Proof
end

