-- ==== Sys2Proof/Config.lean ====
section
/-! DEFINITION. What an implementation fixes and what the spec leaves open.
First the fixed parameters of R6 ("A model may not vary them"), then the free values: constants without a body,
so no proof can use what they are. The block itself has no open parameter (R6); every free value is the device's. -/

namespace Sys2Proof.Config

/-! ## The parameters of R6 -/

/-- `W_REQ`, request word width. -/
abbrev wReq : Nat := 32
/-- `W_OP`, opcode field width. -/
abbrev wOp : Nat := 4
/-- `W_CNT`, operand-count field width. -/
abbrev wCnt : Nat := 2
/-- `W_DATA`, RSP_DATA width. -/
abbrev wData : Nat := 32
/-- `W_AVG`, AVG_SEL input width. -/
abbrev wAvg : Nat := 8
/-- `W_TYPE`, TC_TYPE input width. -/
abbrev wType : Nat := 4
/-- `N_FAULT`, fault-status bits. -/
abbrev nFault : Nat := 8
/-- `W_CJ`, cold-junction field width. -/
abbrev wCj : Nat := 14
/-- `LSB_CJ`, cold-junction resolution in degrees Celsius: 2^-6. -/
def lsbCj : Rat := 1 / 64
/-- `W_TC`, thermocouple field width. -/
abbrev wTc : Nat := 19
/-- `LSB_TC`, thermocouple resolution in degrees Celsius: 2^-7. -/
def lsbTc : Rat := 1 / 128
/-- `W_ARITH`, minimum signed arithmetic width. -/
abbrev wArith : Nat := 20
/-- `W_ADDR`, device register address width. -/
abbrev wAddr : Nat := 7
/-- `W_LEVEL`, averaging level field width. -/
abbrev wLevel : Nat := 3

/-! ## Free values of the device (host context) -/

/-- `DEV_RESET` (R115, D15): the power-on value of the k-th byte of the register listed at an address (R29, R30).
Nothing is assumed of it. -/
opaque devReset : BitVec 7 → Nat → Byte

/-- Whether the DRDY line is low at power-on; the spec does not say (N1). -/
opaque devResetDrdyLow : Bool

/-- The bytes the spec leaves as draws: temperature bytes read inside the one-shot wait or under a device fault
(R118, U4, U6), the Fault Status register after it was read (U12), a register whose write was cut short.
`State.draws` says which draw comes next. -/
opaque freeByte : Nat → Byte

/-- The yes/no draws: whether a cold-junction read leaves a stale DRDY condition standing (R40, D31, U11). -/
opaque freeBit : Nat → Bool

end Sys2Proof.Config
end

