-- ==== Sys2Proof/Machine/World.lean ====
section
/-! DEFINITION. The types of everything around the block that State holds: the host agents and what they may do (R20,
R106, R109), the bus (R31 to R33), the device (R25, R26, R29) and the driver's device handle (R27, R124). The spec
calls these host context: they lie outside the block (R4, R17) and no operation of the block touches them. -/

namespace Sys2Proof.Machine

/-- A host agent, by number; any number of them may issue requests (R109). -/
abbrev Agent := Nat

/-- A response as the issuer receives it: its own `(status, data)` pair (R19, R109). -/
structure Response where
  agent : Agent
  status : Status
  data : Word
  deriving DecidableEq, Repr

/-- The four response registers by name, for a host's read (R17, R20). -/
inductive RspReg where
  | valid | status | op | data
  deriving DecidableEq, Repr

/-- The device registers the source lists (R29). -/
inductive DevReg where
  /-- 0x00, Configuration Register 0. -/
  | cr0
  /-- 0x01, Configuration Register 1. -/
  | cr1
  /-- 0x09, Cold-Junction Temperature Offset and the two data bytes. -/
  | coldJunction
  /-- 0x0C, Thermocouple Temperature. -/
  | thermocouple
  /-- 0x0F, Fault Status. -/
  | faultStatus
  deriving DecidableEq, Repr

/-- The three bytes of a 3-byte register, in the order a read returns them (R30). -/
structure Bytes3 where
  first : Byte
  second : Byte
  third : Byte
  deriving DecidableEq, Repr

/-- The device's own state (R25, R26, R29). -/
structure Device where
  /-- Configuration Register 0. -/
  cr0 : Byte
  /-- Configuration Register 1. -/
  cr1 : Byte
  /-- Cold-junction registers: offset, msb, lsb. -/
  coldJunction : Bytes3
  /-- Thermocouple registers: high, mid, low. -/
  thermocouple : Bytes3
  /-- Fault Status. -/
  faultStatus : Byte
  /-- DRDY is low: a conversion result is (or was, when stale) available (R26, R105). -/
  drdyLow : Bool
  /-- Falling edges of DRDY so far; the excluded interrupt dispatch would turn each into a callback (R105). -/
  fallingEdges : Nat
  /-- The temperature registers may be relied on: false from a one-shot CR0 write until the conversion is done (R118)
  and while the last conversion reported a fault (R104, U6). DESIGN CHOICE, log entries 20 and 32. -/
  settled : Bool
  deriving DecidableEq, Repr

/-- What the transport delivers of a read's bytes. -/
inductive Delivery where
  /-- The device's bytes, the first `got` of them (U2: a read may return fewer bytes than a decode needs). -/
  | intact (got : Nat)
  /-- Other bytes: "a malformed or absent transport response manifests as garbage" (R94, U5). -/
  | garbled (bytes : List Byte)
  deriving DecidableEq, Repr

/-- One action of the host on the bus (R31, R32). -/
inductive BusAction where
  /-- `CS <- low`. -/
  | csLow
  /-- `bus_write(b)`. -/
  | write (b : Byte)
  /-- `bus_read(n)`, with what the transport delivers. -/
  | read (n : Nat) (d : Delivery)
  /-- `CS <- high`. -/
  | csHigh
  deriving DecidableEq, Repr

/-- What the last ended transaction gave. -/
inductive TransportResult where
  /-- No transaction has ended yet. -/
  | noneYet
  /-- A read returned these bytes, the first byte received first. -/
  | received (bytes : List Byte)
  /-- A write was made. -/
  | written
  /-- The transaction failed: the distinct "transport unavailable" condition (R103). -/
  | unavailable
  deriving DecidableEq, Repr

/-- Where the one chip-select line stands within a frame (R31 to R33). -/
inductive BusPhase where
  /-- Chip-select is high; no transaction is in flight. -/
  | idle
  /-- Chip-select went low; the address byte comes next. -/
  | selected (a : Agent)
  /-- A read's address byte was written; the bytes come next. -/
  | reading (a : Agent) (r : DevReg)
  /-- A write's address byte was written; the value byte comes next. -/
  | writing (a : Agent) (r : DevReg)
  /-- The data phase is over; chip-select must go high. -/
  | done (a : Agent) (result : TransportResult)
  deriving DecidableEq, Repr

/-- The Acquisition Mode Controller's mode tag (R27, R124). Nothing enters `idle` (N10). -/
inductive Mode where
  | idle | continuous | oneShotPending
  deriving DecidableEq, Repr

/-- The driver's device handle (R27): set at construction. Chip-select line and bus handle are the one bus of State. -/
structure Driver where
  /-- The configured thermocouple-type code. -/
  tcType : BitVec 4
  /-- The averaging level. -/
  level : BitVec 3
  /-- The controller's mode tag. -/
  mode : Mode
  deriving DecidableEq, Repr

/-- One action of the outside world. -/
inductive HostAction where
  /-- A host agent issues a request word (R42). -/
  | request (a : Agent) (req : Word)
  /-- A host agent issues the decode of the bytes the last ended transaction, of whichever agent, returned, their number
  in CNT (R35, R98). DESIGN CHOICE, log entry 27. -/
  | requestReceived (a : Agent) (o : Opcode)
  /-- The block's reset is applied (R111). -/
  | reset
  /-- The host reads a response register, without taking it for a result (R20). -/
  | readRsp (r : RspReg)
  /-- The host uses `RSP_DATA` as a result (R21, R101). -/
  | useRspData
  /-- A host agent acts on the bus (R31, R32). -/
  | bus (a : Agent) (b : BusAction)
  /-- A host agent writes `data[7:0]` of its own last response on the bus (R109, R116). -/
  | busWriteResult (a : Agent)
  /-- The device completes a conversion with these register contents and drives DRDY low (R105). -/
  | conversionDone (coldJunction thermocouple : Bytes3) (faultStatus : Byte)
  deriving DecidableEq, Repr

/-- A call of the driver around the block (R116, R124; reads as in R98 and R121). -/
inductive DriverCall where
  /-- Construction with an averaging count and a type code (R116). -/
  | construct (avg : Byte) (tcType : BitVec 4)
  /-- "changing it requires rewriting Configuration Register 1" (R27, R44). -/
  | rewriteCr1 (avg : Byte) (tcType : BitVec 4)
  /-- `request_one_shot_sample()`; the F50 choice is an argument (R124). -/
  | requestOneShot (f50 : Bool)
  /-- `setup_drdy_interrupt`; `discard` is what the transport delivers of the discard read (R119). -/
  | setupDrdy (f50 : Bool) (discard : Delivery)
  /-- Read and decode the cold-junction registers. -/
  | readColdJunction (d : Delivery)
  /-- Read and decode the thermocouple registers. -/
  | readThermocouple (d : Delivery)
  /-- Read and decode Fault Status (R121). -/
  | readFault (d : Delivery)
  deriving DecidableEq, Repr

/-- What the outside world does next: one action, or a whole driver call by an agent. -/
inductive HostInput where
  | action (x : HostAction)
  | call (a : Agent) (c : DriverCall)
  deriving DecidableEq, Repr

end Sys2Proof.Machine
end

