-- ==== Sys2Proof/Machine/State.lean ====
section
/-! DEFINITION. The machine's state, its faults and refusals, and the state after reset (R17, R22, R111). -/

namespace Sys2Proof.Machine

/-- The state. The block's architectural state is exactly the first four fields (R17); the others are the model's own
port (inputs waiting, responses handed back) and the host context around the block. -/
structure State where
  /-- `RSP_VALID`, 1 bit: a request has completed since reset (R17). -/
  rspValid : Bool
  /-- `RSP_STATUS`, 2 bits: status code of the last completed request (R17, R96). -/
  rspStatus : BitVec 2
  /-- `RSP_OP`, 4 bits: `REQ[31:28]` of the last completed request (R17). -/
  rspOp : BitVec 4
  /-- `RSP_DATA`, 32 bits: result word of the last completed request (R17). -/
  rspData : Word
  /-- What the outside world does next, oldest first (R16, R42).
  DESIGN CHOICE, log entry 1. -/
  inputs : List HostInput
  /-- The agent whose request is being processed. DESIGN CHOICE, log entry 3. -/
  issuer : Agent
  /-- The pairs handed back to issuers (R19), newest first. -/
  returned : List Response
  /-- What the host has read from the response registers (R20), newest first. -/
  observed : List (RspReg × Word)
  /-- The chip-select line and the frame on it (R31 to R33). -/
  bus : BusPhase
  /-- The bus actions so far, newest first. -/
  busLog : List BusAction
  /-- What the last ended transaction gave. -/
  transport : TransportResult
  /-- The MAX31856 (R25, R26, R29). -/
  device : Device
  /-- The driver's device handle, `none` before construction (R27, R116). -/
  driver : Option Driver
  /-- The model's own counter of free values drawn; no statement rests on its value. DESIGN CHOICE, log entry 12. -/
  draws : Nat
  deriving DecidableEq, Repr

/-- Why a step stops with a fault. Each is a use by the host that the spec tells a model to treat as a fault; no
operation of the block raises one (R95). All are safe: the model stops where an implementation would go on. -/
inductive Fault where
  /-- The host uses `RSP_DATA` as a result while `RSP_VALID = 0`, or has no response of its own to use (R21, U9).
  Raised by `useRspData` and `busWriteResult`. Safe. -/
  | noResult
  /-- The host uses the data of an error response as a result (R101, U9). Raised by `useRspData` and
  `busWriteResult`. Safe. -/
  | errorDataUsed
  /-- Two transactions overlap on the chip-select line (R41, U3). Raised by `busStep`. Safe. -/
  | overlappingTransactions
  deriving DecidableEq, Repr

/-- Why a step has no meaning. All are safe: the model stops. -/
inductive Refusal where
  /-- An instruction without a meaning yet. No arm of `exec` raises it now. Safe. -/
  | notModelled (mnemonic : String)
  /-- A device access of another address or length than R36 gives: "a model's mock transport should refuse it".
  Raised by `busStep`. Safe. -/
  | deviceAccess
  /-- A bus action that continues no frame of R31 or R32 (R33). Raised by `busStep`. Safe. -/
  | malformedFrame
  /-- Construction with a count outside {1, 2, 4, 8, 16} or a code that names no type (R103, C2, U7). Raised by
  `admission`. Safe. -/
  | invalidConfiguration
  /-- A driver call before construction. Raised by `admission`. Safe. -/
  | noDriver
  /-- A decode of received bytes when the last transaction was no read. Raised by `receivedBytes`. Safe. -/
  | nothingReceived
  deriving DecidableEq, Repr

/-- The device at power-on: every register at the open parameter `DEV_RESET` (R115). `fallingEdges` and `settled`:
DESIGN CHOICE, log entry 11. -/
def Device.powerOn : Device where
  cr0 := Config.devReset 0x00 0
  cr1 := Config.devReset 0x01 0
  coldJunction := ⟨Config.devReset 0x09 0, Config.devReset 0x09 1, Config.devReset 0x09 2⟩
  thermocouple := ⟨Config.devReset 0x0C 0, Config.devReset 0x0C 1, Config.devReset 0x0C 2⟩
  faultStatus := Config.devReset 0x0F 0
  drdyLow := Config.devResetDrdyLow
  fallingEdges := 0
  settled := true

/-- The machine right after reset: the response registers at the values of R22, nothing issued or returned, the bus
idle, the device as it powered on, no driver constructed. -/
def State.reset : State where
  rspValid := false
  rspStatus := 0b00
  rspOp := 0x0
  rspData := 0x00000000
  inputs := []
  issuer := 0
  returned := []
  observed := []
  bus := .idle
  busLog := []
  transport := .noneYet
  device := Device.powerOn
  driver := none
  draws := 0

end Sys2Proof.Machine
end

