-- ==== Sys2Proof/Machine/Ops.lean ====
section
/-! DEFINITION. The block's named operations: ending a request (R19), refusing one (R101), reset (R111), and what a
host does with the response registers (R20, R21). -/

namespace Sys2Proof.Machine

/-- The outcome of a step or of a part of one. -/
abbrev Result := Host.Outcome State Fault Refusal

/-- Go on with `f` where `o` answers a next state; a fault or a refusal stands. -/
def andThen (o : Result) (f : State → Result) : Result :=
  match o with
  | .next s => f s
  | .fault r => .fault r
  | .refused r => .refused r

/-- `respond(status, data)` (R19): one indivisible update of the four response registers, and the pair handed to the
issuer. `op` is `REQ[31:28]` of the request being processed. -/
def respond (op : BitVec 4) (st : Status) (data : Word) (s : State) : State :=
  { s with
    rspValid := true
    rspStatus := st.code
    rspOp := op
    rspData := data
    returned := ⟨s.issuer, st, data⟩ :: s.returned }

/-- `raise <Status>` (R12, R101): the error response, the one shared operation for every refused request. The block
has no trap: nothing is saved, no mode changes, and there is nothing to return from (R95, R106). -/
def raiseStatus (op : BitVec 4) (st : Status) (s : State) : State :=
  respond op st 0x00000000 s

/-- Reset (R111, R22): the response registers take their reset values; "Reset has no other effect on the block". -/
def resetBlock (s : State) : State :=
  { s with rspValid := false, rspStatus := 0b00, rspOp := 0x0, rspData := 0x00000000 }

/-- A response register as the host reads it (R17, R20). -/
def rspRegValue (r : RspReg) (s : State) : Word :=
  match r with
  | .valid => (BitVec.ofBool s.rspValid).setWidth 32
  | .status => s.rspStatus.setWidth 32
  | .op => s.rspOp.setWidth 32
  | .data => s.rspData

/-- The host reads a response register (R20): nothing of the block changes. -/
def readRsp (r : RspReg) (s : State) : State :=
  { s with observed := (r, rspRegValue r s) :: s.observed }

/-- The host uses `RSP_DATA` as a result: a fault while `RSP_VALID = 0` (R21) and after an error response (R101).
No agent is named: it goes on also when the OK response in the registers is another agent's than the user's, which R109
tells a host not to rely on. DESIGN CHOICE, log entry 30. -/
def useRspData (s : State) : Result :=
  if s.rspValid = false then .fault .noResult
  else if s.rspStatus ≠ Status.ok.code then .fault .errorDataUsed
  else .next (readRsp .data s)

/-- The last response handed to an agent: its own pair, whatever the registers hold since (R109). -/
def latestFor (a : Agent) (rs : List Response) : Option Response :=
  rs.find? (fun r => r.agent == a)

end Sys2Proof.Machine
end

