-- ==== Sys2Proof/Machine/Operands.lean ====
section
/-! DEFINITION. Operand assembly (R63, R82, R89) and the conversions of the notation (R9, R10, R11). Operand bytes
are unsigned; wider fields come from shifts and ORs on non-negative integers; sign is applied once, afterwards. -/

namespace Sys2Proof.Machine

/-- `zext_32` of a byte (R10). -/
def zext32 (b : Byte) : Word := b.setWidth 32

/-- `sext_32` of an integer (R10); every use is on a value in range (R86, R91). -/
def sext32 (v : Int) : Word := BitVec.ofInt 32 v

/-- The sign bit of a byte is its bit 7, tested with the mask 0x80 (R7, R84, R90). -/
def signBit (b : Byte) : Bool := b.toNat &&& 0x80 != 0

/-- The 14-bit cold-junction field, `((msb << 8) | lsb) >> 2` (R61, R82). -/
def cjField (msb lsb : Byte) : Nat := (msb.toNat <<< 8 ||| lsb.toNat) >>> 2

/-- The 19-bit thermocouple field, `((high << 16) | (mid << 8) | low) >> 5` (R62, R89). -/
def tcField (high mid low : Byte) : Nat := (high.toNat <<< 16 ||| mid.toNat <<< 8 ||| low.toNat) >>> 5

end Sys2Proof.Machine
end

