-- ==== Sys2Proof/Machine/Flags.lean ====
section
/-! DEFINITION. The block has no flags (R23): no operation sets a carry, overflow, zero or sign flag, and `RSP_STATUS`
is the only status. What this file holds is the bit table of the Fault Status byte, which the spec asks to be
"exposed as a documented table" (R60, R76). -/

namespace Sys2Proof.Machine

/-- The bit of the Fault Status byte a fault kind stands at (R60; bits 1 to 7 by decision D14). -/
def faultBit : FaultKind → Nat
  | .thermocoupleOpenCircuit => 0
  | .overUnderVoltage => 1
  | .thermocoupleLow => 2
  | .thermocoupleHigh => 3
  | .coldJunctionLow => 4
  | .coldJunctionHigh => 5
  | .thermocoupleOutOfRange => 6
  | .coldJunctionOutOfRange => 7

/-- All fault kinds, from bit 0 upward (R60). -/
def allFaultKinds : List FaultKind :=
  [.thermocoupleOpenCircuit, .overUnderVoltage, .thermocoupleLow, .thermocoupleHigh,
   .coldJunctionLow, .coldJunctionHigh, .thermocoupleOutOfRange, .coldJunctionOutOfRange]

/-- The set view of a DECODE_FAULT result (R76): kind `k` is in the set exactly when its bit is 1. -/
def faultSet (d : Word) : List FaultKind :=
  allFaultKinds.filter (fun k => d.getLsbD (faultBit k))

end Sys2Proof.Machine
end

