-- ==== Sys2Proof/Machine/Codec.lean ====
section
/-! DEFINITION. The Register Codec's three operations (R67 to R80). -/

namespace Sys2Proof.Machine

/-- The CR0 byte `{~one_shot, one_shot, 0b00000, f50}` (R57, R67). -/
def cr0Byte (oneShot f50 : Bool) : Byte :=
  BitVec.ofBool (!oneShot) ++ BitVec.ofBool oneShot ++ 0b00000#5 ++ BitVec.ofBool f50

/-- BUILD_CR0 (R67). -/
def execBuildCr0 (oneShot f50 : Bool) (s : State) : Result :=
  .next (respond Opcode.buildCr0.code .ok (zext32 (cr0Byte oneShot f50)) s)

/-- The halving loop of R69 with a bound on its rounds: `n <- n >> 1 ; l <- l + 1` while `n > 1`. -/
def halvings : (bound : Nat) → (n : Nat) → Nat
  | 0, _ => 0
  | bound + 1, n => if n > 1 then halvings bound (n >>> 1) + 1 else 0

/-- The averaging level of a count (R69). Each round at least halves, so `a` rounds are enough for any `a`. -/
def level (a : Nat) : Nat := halvings a a

/-- The CR1 byte `zext_8(tc) | (lvl << 4)` (R58, R71). -/
def cr1Byte (avgSel : BitVec 8) (tcType : BitVec 4) : Byte :=
  BitVec.ofNat 8 (tcType.toNat ||| level avgSel.toNat <<< 4)

/-- BUILD_CR1 (R71): neither the type (R72) nor the count (R73) is validated. -/
def execBuildCr1 (avgSel : BitVec 8) (tcType : BitVec 4) (s : State) : Result :=
  .next (respond Opcode.buildCr1.code .ok (zext32 (cr1Byte avgSel tcType)) s)

/-- DECODE_FAULT (R75): the byte itself, "no transformation"; `faultSet` reads the set off it (R76). -/
def execDecodeFault (sr : Byte) (s : State) : Result :=
  .next (respond Opcode.decodeFault.code .ok (zext32 sr) s)

end Sys2Proof.Machine
end

