-- ==== Sys2Proof/Machine/Temperature.lean ====
section
/-! DEFINITION. The Temperature Decoder's two operations (R81 to R94), and the temperature a result stands for (R14). -/

namespace Sys2Proof.Machine

/-- The signed cold-junction value in units of 2^-6 degrees (R81): the unsigned offset is added to the field before
the sign correction (R83), which tests the msb as it arrived (R84). -/
def cjValue (offset msb lsb : Byte) : Int :=
  let raw : Int := ((cjField msb lsb + offset.toNat : Nat) : Int)
  if signBit msb then raw - 0x4000 else raw

/-- DECODE_CJ (R81). -/
def execDecodeCj (offset msb lsb : Byte) (s : State) : Result :=
  .next (respond Opcode.decodeCj.code .ok (sext32 (cjValue offset msb lsb)) s)

/-- The signed thermocouple value in units of 2^-7 degrees (R88, R90). -/
def tcValue (high mid low : Byte) : Int :=
  let raw : Int := (tcField high mid low : Int)
  if signBit high then raw - 0x80000 else raw

/-- DECODE_TC (R88). -/
def execDecodeTc (high mid low : Byte) (s : State) : Result :=
  .next (respond Opcode.decodeTc.code .ok (sext32 (tcValue high mid low)) s)

/-- The temperature in degrees Celsius a DECODE_CJ data word stands for, exactly (R14, R85). The block does not
compute it. -/
def cjCelsius (data : Word) : Rat := (data.toInt : Rat) * Config.lsbCj

/-- The temperature in degrees Celsius a DECODE_TC data word stands for, exactly (R14, R90). The block does not
compute it. -/
def tcCelsius (data : Word) : Rat := (data.toInt : Rat) * Config.lsbTc

end Sys2Proof.Machine
end

