-- ==== Sys2Proof/Machine/Dispatch.lean ====
section
/-! DEFINITION. The dispatch: one arm per operation, each one call of its meaning. -/

namespace Sys2Proof.Machine

def exec (i : Instr) (s : State) : Host.Outcome State Fault Refusal :=
  match i with
  | .buildCr0 oneShot f50 => Sys2Proof.Machine.execBuildCr0 oneShot f50 s
  | .buildCr1 avgSel tcType => Sys2Proof.Machine.execBuildCr1 avgSel tcType s
  | .decodeFault sr => Sys2Proof.Machine.execDecodeFault sr s
  | .decodeCj offset msb lsb => Sys2Proof.Machine.execDecodeCj offset msb lsb s
  | .decodeTc high mid low => Sys2Proof.Machine.execDecodeTc high mid low s

end Sys2Proof.Machine
end

