-- ==== Sys2Proof/Machine/Request.lean ====
section
/-! DEFINITION. Serving one request (R12, R37, R55): classify the word, then run the operation or raise the status. -/

namespace Sys2Proof.Machine

/-- One request of one agent, as one indivisible step. Every request ends in exactly one response (R95): a word the
decoder rejects gets the error response of R101, with `RSP_OP = REQ[31:28]`. -/
def serve (a : Agent) (req : Word) (s : State) : Result :=
  match decode req with
  | .instr i => exec i { s with issuer := a }
  | .rejected st => .next (raiseStatus (Fields.ofWord req).op st { s with issuer := a })

/-- The request that decodes received bytes: the k-th received byte in Bk (R35), the number received in CNT (R98), a
byte not received left 0. -/
def requestFor (o : Opcode) (bytes : List Byte) : Word :=
  (Fields.mk o.code (BitVec.ofNat 2 bytes.length) 0 (bytes.getD 0 0) (bytes.getD 1 0) (bytes.getD 2 0)).toWord

/-- The bytes the last ended transaction returned, whichever agent's it was (log entry 27): none when the transport was unavailable (R103 (b)). -/
def receivedBytes (t : TransportResult) : Option (List Byte) :=
  match t with
  | .received bytes => some bytes
  | .unavailable => some []
  | .noneYet => none
  | .written => none

/-- A host agent issues the decode of the bytes the last ended transaction returned. The spec does not say whose read
that is when several agents share the bus: the model keeps one transport result, so it is the last transaction of ANY
agent, with its bytes and its count. DESIGN CHOICE, log entry 27. -/
def serveReceived (a : Agent) (o : Opcode) (s : State) : Result :=
  match receivedBytes s.transport with
  | some bytes => serve a (requestFor o bytes) s
  | none => .refused .nothingReceived

end Sys2Proof.Machine
end

