-- ==== Sys2Proof/Machine/Transport.lean ====
section
/-! DEFINITION. The device register space and the bus (host context: R26, R29 to R41). The block performs none of
this; it is what the spec gives for "a model that includes a mock transport". -/

namespace Sys2Proof.Machine

/-! ## The register space (R29, R36) -/

/-- The 7-bit address of a device register (R29). -/
def DevReg.addr : DevReg → BitVec 7
  | .cr0 => 0x00
  | .cr1 => 0x01
  | .coldJunction => 0x09
  | .thermocouple => 0x0C
  | .faultStatus => 0x0F

/-- The register at an address; every other address has no meaning (R29, R36). -/
def DevReg.ofAddr (x : BitVec 7) : Option DevReg :=
  [DevReg.cr0, .cr1, .coldJunction, .thermocouple, .faultStatus].find? (fun r => r.addr == x)

/-- How many bytes a read of a register has; CR0 and CR1 are not read (R36). -/
def DevReg.readLength : DevReg → Option Nat
  | .cr0 => none
  | .cr1 => none
  | .coldJunction => some 3
  | .thermocouple => some 3
  | .faultStatus => some 1

/-- Writes are 1 byte, at CR0 or CR1 only (R36). -/
def DevReg.writable : DevReg → Bool
  | .cr0 => true
  | .cr1 => true
  | .coldJunction => false
  | .thermocouple => false
  | .faultStatus => false

/-- The address byte of a read: bit 7 is 0 (R31). -/
def readAddressByte (r : DevReg) : Byte := r.addr.setWidth 8

/-- The address byte of a write: `address | 0x80` (R32). -/
def writeAddressByte (r : DevReg) : Byte := r.addr.setWidth 8 ||| 0x80

/-! ## The device -/

/-- The three bytes in receive order (R30). -/
def Bytes3.toList (b : Bytes3) : List Byte := [b.first, b.second, b.third]

/-- `n` free bytes from draw `k` on. -/
def freeBytes (n k : Nat) : List Byte := (List.range n).map (fun j => Config.freeByte (k + j))

/-- A CR0 byte the block can produce (R68). -/
def isCr0Byte (b : Byte) : Bool := b == 0x40 || b == 0x41 || b == 0x80 || b == 0x81

/-- A byte written to a device register. The temperature registers are still to be relied on only after a continuous
byte of R68: a one-shot byte starts a conversion (R118), and what another byte does is not in the spec (N2, U14). -/
def writeDevice (r : DevReg) (v : Byte) (d : Device) : Device :=
  match r with
  | .cr0 => { d with cr0 := v, settled := d.settled && (v == 0x80 || v == 0x81) }
  | .cr1 => { d with cr1 := v }
  | .coldJunction => d
  | .thermocouple => d
  | .faultStatus => d

/-- The bytes a read of the register finds, and the state after drawing any that are free: temperature bytes are free
inside the one-shot wait (R118, U4) and after a conversion that reported a fault (U6). `settled` decides, not the
present Fault Status byte, which may differ from what the last conversion reported. DESIGN CHOICE, log entry 32. -/
def deviceBytes (r : DevReg) (s : State) : List Byte × State :=
  match r with
  | .coldJunction =>
    if s.device.settled then (s.device.coldJunction.toList, s)
    else (freeBytes 3 s.draws, { s with draws := s.draws + 3 })
  | .thermocouple =>
    if s.device.settled then (s.device.thermocouple.toList, s)
    else (freeBytes 3 s.draws, { s with draws := s.draws + 3 })
  | .faultStatus => ([s.device.faultStatus], s)
  | .cr0 => ([], s)
  | .cr1 => ([], s)

/-- DRDY goes high: a stale condition is cleared (R39). -/
def clearDrdy (s : State) : State :=
  { s with device := { s.device with drdyLow := false } }

/-- DRDY is cleared or left as it is, by a draw (R40, U11). -/
def drawDrdy (s : State) : State :=
  { s with
    device := { s.device with drdyLow := s.device.drdyLow && Config.freeBit s.draws }
    draws := s.draws + 1 }

/-- The Fault Status register after it was read is a draw (N8, U12). The draw is not taken for a fault reported by the
device: `settled` stays, so the temperature bytes are not made free by it (U6). DESIGN CHOICE, log entry 32. -/
def drawFaultStatus (s : State) : State :=
  { s with
    device := { s.device with faultStatus := Config.freeByte s.draws }
    draws := s.draws + 1 }

/-- What a write does (R32). A CR0 byte that is none of R68's may set bits whose function the spec leaves open (N2,
U14): the Fault Status register and DRDY are then draws. DESIGN CHOICE, log entry 26. -/
def writeEffect (r : DevReg) (v : Byte) (s : State) : State :=
  match r with
  | .cr0 =>
    if isCr0Byte v then { s with device := writeDevice .cr0 v s.device }
    else drawFaultStatus (drawDrdy { s with device := writeDevice .cr0 v s.device })
  | .cr1 => { s with device := writeDevice .cr1 v s.device }
  | .coldJunction => s
  | .thermocouple => s
  | .faultStatus => s

/-- What a read leaves behind (R39, R40). `whole` says the device delivered the whole register; a cut or garbled
thermocouple read leaves DRDY to a draw. -/
def readEffect (r : DevReg) (whole : Bool) (s : State) : State :=
  match r with
  | .thermocouple => if whole then clearDrdy s else drawDrdy s
  | .coldJunction => drawDrdy s
  | .faultStatus => drawFaultStatus s
  | .cr0 => s
  | .cr1 => s

/-- A device conversion completes: the registers take their new contents and DRDY goes low, a falling edge only when
it was high (R105, R119). DEDUCED, log entry 22. The spec gives no timing for a fault bit (N15): here Fault Status
changes only with a completed conversion and by the draws of this file. DESIGN CHOICE, log entry 31. The spec does not
say whether the device changes CR0, its one-shot bit say, when a conversion completes: here both configuration
registers stay. DESIGN CHOICE, log entry 33. -/
def conversionDone (coldJunction thermocouple : Bytes3) (faultStatus : Byte) (s : State) : State :=
  { s with
    device := { s.device with
      coldJunction := coldJunction
      thermocouple := thermocouple
      faultStatus := faultStatus
      drdyLow := true
      fallingEdges := s.device.fallingEdges + (if s.device.drdyLow then 0 else 1)
      settled := faultStatus == 0 } }

/-! ## The bus -/

/-- The agent whose transaction is in flight. -/
def busOwner : BusPhase → Option Agent
  | .idle => none
  | .selected a => some a
  | .reading a _ => some a
  | .writing a _ => some a
  | .done a _ => some a

/-- The address byte of a frame: bit 7 tells a read from a write (R31, R32); an access of R36 or none. -/
def addressPhase (a : Agent) (b : Byte) (s : State) : Result :=
  match DevReg.ofAddr (b.setWidth 7) with
  | none => .refused .deviceAccess
  | some r =>
    if b.getLsbD 7 then
      if r.writable then .next { s with bus := .writing a r } else .refused .deviceAccess
    else
      match r.readLength with
      | some _ => .next { s with bus := .reading a r }
      | none => .refused .deviceAccess

/-- `bytes <- bus_read(n)` (R31): `n` is the register's length (R36), and no more than `n` bytes are delivered. -/
def readPhase (a : Agent) (r : DevReg) (n : Nat) (d : Delivery) (s : State) : Result :=
  if r.readLength ≠ some n then .refused .deviceAccess
  else
    match d with
    | .intact got =>
      if got ≤ n then
        let found := deviceBytes r s
        .next { readEffect r (got == n) found.2 with bus := .done a (.received (found.1.take got)) }
      else .refused .malformedFrame
    | .garbled bytes =>
      if bytes.length ≤ n then .next { readEffect r false s with bus := .done a (.received bytes) }
      else .refused .malformedFrame

/-- Chip-select goes high before the frame is complete: the transaction failed, and "Chip-select must return to the
inactive (high) level before any other transaction begins, even on an intervening fault" (R33). What an interrupted
access did to the device is a draw. DESIGN CHOICE, log entry 16. -/
def abortEffect (p : BusPhase) (s : State) : State :=
  match p with
  | .reading _ r => readEffect r false s
  | .writing _ .cr0 =>
    drawFaultStatus (drawDrdy { s with
      device := { s.device with cr0 := Config.freeByte s.draws, settled := false }
      draws := s.draws + 1 })
  | .writing _ .cr1 =>
    { s with
      device := { s.device with cr1 := Config.freeByte s.draws }
      draws := s.draws + 1 }
  | _ => s

/-- The frame automaton (R31 to R33): what the next action of the agent owning the bus does. The spec does not say at
which point of a frame an access takes effect: here a read's effects (DRDY cleared, values drawn) and a written byte
land at the data phase, not when chip-select goes high. DESIGN CHOICE, log entry 28. -/
def frameStep (a : Agent) (b : BusAction) (s : State) : Result :=
  match s.bus, b with
  | .idle, .csLow => .next { s with bus := .selected a }
  | .idle, .write _ => .refused .malformedFrame
  | .idle, .read _ _ => .refused .malformedFrame
  | .idle, .csHigh => .refused .malformedFrame
  | .selected _, .write v => addressPhase a v s
  | .writing _ r, .write v => .next { writeEffect r v s with bus := .done a .written }
  | .reading _ r, .read n d => readPhase a r n d s
  | .done _ t, .csHigh => .next { s with bus := .idle, transport := t }
  | p, .csHigh => .next { abortEffect p s with bus := .idle, transport := .unavailable }
  | _, .csLow => .fault .overlappingTransactions
  | _, .write _ => .refused .malformedFrame
  | _, .read _ _ => .refused .malformedFrame

/-- One bus action of an agent. At most one transaction is in flight (R41): an action of another agent inside one, or
a chip-select going low again, is an overlap, a fault. -/
def busStep (a : Agent) (b : BusAction) (s : State) : Result :=
  match busOwner s.bus with
  | none => frameStep a b { s with busLog := b :: s.busLog }
  | some o =>
    if o = a then frameStep a b { s with busLog := b :: s.busLog }
    else .fault .overlappingTransactions

/-- A host agent writes `data[7:0]` of the last response handed to it (R109, R116): without one, or with an error
response, there is no result to use (R21, R101). -/
def busWriteResult (a : Agent) (s : State) : Result :=
  match latestFor a s.returned with
  | none => .fault .noResult
  | some r =>
    if r.status = .ok then busStep a (.write (r.data.setWidth 8)) s
    else .fault .errorDataUsed

end Sys2Proof.Machine
end

