-- ==== Sys2Proof/Machine/Driver.lean ====
section
/-! DEFINITION. The actions of the outside world and the driver's calls (host context: R116, R119, R121, R124). -/

namespace Sys2Proof.Machine

/-! ## One action -/

/-- One action of the outside world. -/
def perform (x : HostAction) (s : State) : Result :=
  match x with
  | .request a req => serve a req s
  | .requestReceived a o => serveReceived a o s
  | .reset => .next (resetBlock s)
  | .readRsp r => .next (readRsp r s)
  | .useRspData => useRspData s
  | .bus a b => busStep a b s
  | .busWriteResult a => busWriteResult a s
  | .conversionDone cj tc sr => .next (conversionDone cj tc sr s)

/-- Actions one after another, stopping at the first fault or refusal. -/
def performAll (xs : List HostAction) (s : State) : Result :=
  match xs with
  | [] => .next s
  | x :: xs => andThen (perform x s) (performAll xs)

/-! ## The frames -/

/-- `DevRead(addr, n)` (R31). -/
def devRead (a : Agent) (r : DevReg) (n : Nat) (d : Delivery) : List HostAction :=
  [.bus a .csLow, .bus a (.write (readAddressByte r)), .bus a (.read n d), .bus a .csHigh]

/-- `DevWrite(addr, v)` (R32). -/
def devWrite (a : Agent) (r : DevReg) (v : Byte) : List HostAction :=
  [.bus a .csLow, .bus a (.write (writeAddressByte r)), .bus a (.write v), .bus a .csHigh]

/-- `DevWrite(addr, data[7:0])` with the data of the agent's last response (R116). -/
def devWriteResult (a : Agent) (r : DevReg) : List HostAction :=
  [.bus a .csLow, .bus a (.write (writeAddressByte r)), .busWriteResult a, .bus a .csHigh]

/-! ## The driver's calls -/

/-- What a call does, in order. CR0 and CR1 are written only with a whole block result (R44). Every frame of a call is
complete, so no call meets "transport unavailable" (R103 (b)) and its device writes always succeed; a call's read can
be short or garbled, a failing frame comes as single actions. DESIGN CHOICE, log entry 29. -/
def callPlan (a : Agent) (c : DriverCall) : List HostAction :=
  match c with
  | .construct avg tc => .request a (encode (.buildCr1 avg tc)) :: devWriteResult a .cr1
  | .rewriteCr1 avg tc => .request a (encode (.buildCr1 avg tc)) :: devWriteResult a .cr1
  | .requestOneShot f50 => .request a (encode (.buildCr0 true f50)) :: devWriteResult a .cr0
  | .setupDrdy f50 d =>
    devRead a .thermocouple 3 d ++ (.request a (encode (.buildCr0 false f50)) :: devWriteResult a .cr0)
  | .readColdJunction d => devRead a .coldJunction 3 d ++ [.requestReceived a .decodeCj]
  | .readThermocouple d => devRead a .thermocouple 3 d ++ [.requestReceived a .decodeTc]
  | .readFault d => devRead a .faultStatus 1 d ++ [.requestReceived a .decodeFault]

/-- The averaging counts construction takes (R116). -/
def constructionCount (avg : Byte) : Bool :=
  avg == 1 || avg == 2 || avg == 4 || avg == 8 || avg == 16

/-- Why a call is turned away, if it is: construction fails fast on an invalid enumerated value (R103 (a), C2), every
other call needs a constructed driver. -/
def admission (c : DriverCall) (s : State) : Option Refusal :=
  match c with
  | .construct avg tc =>
    if constructionCount avg && (ThermocoupleType.ofCode tc).isSome then none else some .invalidConfiguration
  | _ => if s.driver.isSome then none else some .noDriver

/-- The driver's handle after a call (R27, R124). -/
def driverAfter (c : DriverCall) (d : Option Driver) : Option Driver :=
  match c with
  | .construct avg tc => some ⟨tc, BitVec.ofNat 3 (level avg.toNat), .continuous⟩
  | .rewriteCr1 avg tc => d.map (fun h => { h with tcType := tc, level := BitVec.ofNat 3 (level avg.toNat) })
  | .requestOneShot _ => d.map (fun h => { h with mode := .oneShotPending })
  | .setupDrdy _ _ => d.map (fun h => { h with mode := .continuous })
  | .readColdJunction _ => d
  | .readThermocouple _ => d
  | .readFault _ => d

/-- A whole call of the driver by an agent. DESIGN CHOICE, log entry 17. -/
def runCall (a : Agent) (c : DriverCall) (s : State) : Result :=
  match admission c s with
  | some r => .refused r
  | none => andThen (performAll (callPlan a c) s) (fun t => .next { t with driver := driverAfter c t.driver })

/-- What the outside world does next. -/
def handleInput (x : HostInput) (s : State) : Result :=
  match x with
  | .action x => perform x s
  | .call a c => runCall a c s

/-- DRDY set-up without an interrupt controller (R125): "the discard-read result and the config byte to write", the
byte being `data[7:0]` of the BUILD_CR0 response. Nothing is written to CR0 yet. -/
def setupDrdyCore (a : Agent) (f50 : Bool) (discard : Delivery) (s : State) : Option (List Byte × Byte) :=
  match performAll (devRead a .thermocouple 3 discard ++ [.request a (encode (.buildCr0 false f50))]) s with
  | .next t => (receivedBytes t.transport).map (fun bytes => (bytes, t.rspData.setWidth 8))
  | .fault _ => none
  | .refused _ => none

end Sys2Proof.Machine
end

