-- ==== Sys2Proof/Machine/Step.lean ====
section
/-! DEFINITION. One step: the oldest waiting input, whole (R37, R42). There is no program counter and nothing is
fetched (R16): the request sequence of the host is the program. -/

namespace Sys2Proof.Machine

/-- One step. With no input waiting the block is ready and nothing changes (R95). DESIGN CHOICE, log entry 1. -/
def step (s : State) : Host.Outcome State Fault Refusal :=
  match s.inputs with
  | [] => .next s
  | x :: rest => handleInput x { s with inputs := rest }

/-- The state in which the word is the very next request: it is put before the other inputs, issued by the agent the
state names. DESIGN CHOICE, log entry 2. -/
def State.withFetchWord (s : State) (nbits w : Nat) : State :=
  { s with inputs := .action (.request s.issuer (BitVec.ofNat 32 (w % 2 ^ nbits))) :: s.inputs }

end Sys2Proof.Machine
end

