-- ==== Sys2Proof/Machine/Answer.lean ====
section
/-! DEFINITION. What a request word is answered with, in closed form: the opcode table's rows for the choice (R55) and
the closed forms of R68, R70, R85 and R90 for the data. Written apart from the meanings, so that claims can compare
the two. -/

namespace Sys2Proof.Machine

/-- The result word of an operation in closed form (R68, R70 with R71, R75, R85, R90). -/
def closedData (o : Opcode) (f : Fields) : Word :=
  match o with
  | .buildCr0 => (if f.b0.getLsbD 1 then 0x40 else 0x80) + (if f.b0.getLsbD 0 then 1 else 0)
  | .buildCr1 => BitVec.ofNat 32 (16 * Nat.log2 f.b0.toNat + f.b1.toNat % 16)
  | .decodeFault => BitVec.ofNat 32 f.b0.toNat
  | .decodeCj => BitVec.ofInt 32 (((f.b1 ++ f.b2).extractLsb' 2 14).toInt + (f.b0.toNat : Int))
  | .decodeTc => ((f.b0 ++ f.b1 ++ f.b2).extractLsb' 5 19).signExtend 32

/-- The status of a word that matches no row: the first failing check (R100). -/
def rejection (req : Word) : Status :=
  match Opcode.ofCode (Fields.ofWord req).op with
  | none => .illegalOp
  | some o => if (Fields.ofWord req).cnt = o.requiredCnt then .reservedField else .length

/-- The answer to a request word: a function of the word alone (R18). -/
def answer (req : Word) : Status × Word :=
  match opcodeTable.find? (fun r => r.hits req) with
  | some r => (.ok, closedData r.opcode (Fields.ofWord req))
  | none => (rejection req, 0)

end Sys2Proof.Machine
end

