-- ==== Sys2Proof/Safety.lean ====
section
/-! DEFINITION. What counts as a safe run and a legal state, in the terms the claims use. -/

namespace Sys2Proof.Machine

/-! ## The response registers -/

/-- The data words an operation can answer with: the four CR0 bytes (R68), a CR1 byte with bit 7 clear (R58), a fault
byte (R75), the ranges of R86 and R91. -/
def okDataShape (op : BitVec 4) (data : Word) : Bool :=
  match Opcode.ofCode op with
  | some .buildCr0 => data == 0x40 || data == 0x41 || data == 0x80 || data == 0x81
  | some .buildCr1 => decide (data.toNat < 128)
  | some .decodeFault => decide (data.toNat < 256)
  | some .decodeCj => decide (-8192 ≤ data.toInt ∧ data.toInt ≤ 8446)
  | some .decodeTc => decide (-262144 ≤ data.toInt ∧ data.toInt ≤ 262143)
  | none => false

/-- What the response registers can hold after a request: a result of the operation named by OP, or an error with
data 0, ILLEGAL_OP exactly for a reserved OP (R17, R56, R96, R101). -/
def answerShape (op : BitVec 4) (st : Status) (data : Word) : Bool :=
  match st with
  | .ok => okDataShape op data
  | .illegalOp => (Opcode.ofCode op).isNone && data == 0
  | .length => (Opcode.ofCode op).isSome && data == 0
  | .reservedField => (Opcode.ofCode op).isSome && data == 0

/-- The response registers are as R17 to R22 allow. -/
structure ResponsesConsistent (s : State) : Prop where
  /-- Before the first request since reset they hold their reset values (R21, R22). -/
  unused : s.rspValid = false → s.rspStatus = 0b00 ∧ s.rspOp = 0x0 ∧ s.rspData = 0
  /-- After a request they hold one of its possible answers (R17, R56). -/
  shaped : s.rspValid = true → answerShape s.rspOp (Status.ofCode s.rspStatus) s.rspData = true
  /-- They hold the pair last handed to an issuer (R19). -/
  paired : s.rspValid = true →
    s.returned.head? = some ⟨s.issuer, Status.ofCode s.rspStatus, s.rspData⟩
  /-- Every error response handed out carried data 0 (R56, R101). -/
  errorsZero : ∀ r ∈ s.returned, r.status ≠ .ok → r.data = 0

/-- Two states hold the same in the block and at its port (R17, R19). -/
structure SameBlock (s t : State) : Prop where
  rspValid : t.rspValid = s.rspValid
  rspStatus : t.rspStatus = s.rspStatus
  rspOp : t.rspOp = s.rspOp
  rspData : t.rspData = s.rspData
  issuer : t.issuer = s.issuer
  returned : t.returned = s.returned

/-- Two states hold the same in everything around the block: the host context (R25 to R27). -/
structure SameSurroundings (s t : State) : Prop where
  inputs : t.inputs = s.inputs
  issuer : t.issuer = s.issuer
  observed : t.observed = s.observed
  bus : t.bus = s.bus
  busLog : t.busLog = s.busLog
  transport : t.transport = s.transport
  device : t.device = s.device
  driver : t.driver = s.driver
  draws : t.draws = s.draws

/-- The data an operation answers with from a state, where it answers. -/
def resultData (i : Instr) (s : State) : Option Word :=
  match exec i s with
  | .next t => some t.rspData
  | .fault _ => none
  | .refused _ => none

/-! ## The bus and the device -/

/-- A transaction in flight is one of R36's accesses, and what it read fits the register. -/
def busLegal : BusPhase → Bool
  | .idle => true
  | .selected _ => true
  | .reading _ r => r.readLength.isSome
  | .writing _ r => r.writable
  | .done _ (.received bytes) => decide (bytes.length ≤ 3)
  | .done _ .written => true
  | .done _ .noneYet => false
  | .done _ .unavailable => false

/-- The bus stands inside a frame of R31 or R32, and the last ended transaction returned at most three bytes. -/
structure BusWellFramed (s : State) : Prop where
  phase : busLegal s.bus = true
  received : ∀ bytes, s.transport = .received bytes → bytes.length ≤ 3

/-- A CR1 byte the block can produce: bit 7 clear (R58, R78). -/
def isCr1Byte (b : Byte) : Bool := !(b.getLsbD 7)

/-! ## Safe runs -/

/-- A step that goes on: neither a fault nor a refusal. -/
def StepGoesOn (s : State) : Prop := ∃ t, step s = .next t

end Sys2Proof.Machine
end

