-- ==== Sys2Proof/Certificates/Slice0/Obligations.lean ====
section
/-! DEFINITION. The statements for the provers. Each formalises rules of spec/ or a whole-machine property derived
from them; OBLIGATIONS.json names the rules. A statement over a waiting request says what `step` does with it, a
statement over an operation what `exec` does. -/

open Sys2Proof Sys2Proof.Machine

/-! ## Reset and the response registers -/

/-- R22: the response registers after reset. -/
def Obligations.ResetValuesOfResponseRegisters : Prop :=
  State.reset.rspValid = false ∧ State.reset.rspStatus = 0b00#2 ∧ State.reset.rspOp = 0x0#4 ∧
    State.reset.rspData = 0x00000000#32

/-- R111: applying reset sets the four registers. That the device, the bus, the driver, the pairs handed out and the
records stay as they are is the model's reading (log entry 4): R111 speaks of the block only. -/
def Obligations.ResetInputSetsOnlyTheResponseRegisters : Prop :=
  ∀ (s : State) (rest : List HostInput), s.inputs = .action .reset :: rest →
    step s = .next { s with
      inputs := rest, rspValid := false, rspStatus := 0b00#2, rspOp := 0x0#4, rspData := 0x00000000#32 }

/-- The model's choice (log entry 1): with no input waiting, a step changes nothing. -/
def Obligations.IdleStepChangesNothing : Prop :=
  ∀ s : State, s.inputs = [] → step s = .next s

/-- R19, R95: whatever the word, a waiting request is answered in one step: the four registers are written as
`respond` writes them, the issuer gets the pair, and nothing else changes. -/
def Obligations.EveryRequestEndsInOneResponse : Prop :=
  ∀ (s : State) (a : Agent) (req : Word) (rest : List HostInput),
    s.inputs = .action (.request a req) :: rest →
    ∃ (st : Status) (data : Word),
      step s = .next { s with
        inputs := rest, issuer := a, rspValid := true, rspStatus := st.code,
        rspOp := req.extractLsb' 28 4, rspData := data, returned := ⟨a, st, data⟩ :: s.returned }

/-- R20: a host reads any response register at any time, and only a completed request and reset change one: an input
that issues no request and is no reset leaves all four as they are. -/
def Obligations.HostReadsAndNeverWritesResponseRegisters : Prop :=
  (∀ (s : State) (r : RspReg) (rest : List HostInput), s.inputs = .action (.readRsp r) :: rest →
    ∃ v : Word, step s = .next { s with inputs := rest, observed := (r, v) :: s.observed } ∧
      (r = .valid → v = if s.rspValid then 1 else 0) ∧
      (r = .status → v.toNat = s.rspStatus.toNat) ∧
      (r = .op → v.toNat = s.rspOp.toNat) ∧
      (r = .data → v = s.rspData)) ∧
  (∀ (s t : State) (x : HostAction) (rest : List HostInput), s.inputs = .action x :: rest →
    (∀ a req, x ≠ .request a req) → (∀ a o, x ≠ .requestReceived a o) → x ≠ .reset →
    step s = .next t →
    t.rspValid = s.rspValid ∧ t.rspStatus = s.rspStatus ∧ t.rspOp = s.rspOp ∧ t.rspData = s.rspData)

/-- R21: using `RSP_DATA` as a result faults before the first response. That it faults after an error response is the
model's reading of R101 and U9 (log entry 5), and that it goes on after any OK response, whoever's it was, is the
model's choice (log entry 30). -/
def Obligations.RspDataIsAResultOnlyAfterAnOkResponse : Prop :=
  ∀ (s : State) (rest : List HostInput), s.inputs = .action .useRspData :: rest →
    (s.rspValid = false → step s = .fault .noResult) ∧
    (s.rspValid = true → s.rspStatus ≠ 0b00#2 → step s = .fault .errorDataUsed) ∧
    (s.rspValid = true → s.rspStatus = 0b00#2 →
      step s = .next { s with inputs := rest, observed := (.data, s.rspData) :: s.observed })

/-- The reset state holds response registers as R17 to R22 allow. -/
def Obligations.ResetStateIsConsistent : Prop :=
  ResponsesConsistent State.reset

/-- From every state whose response registers are as R17 to R22 allow, a step leads to such a state: a result of the
operation RSP_OP names in its range, or an error with data 0, and always the pair last handed to an issuer. -/
def Obligations.StepKeepsResponsesConsistent : Prop :=
  ∀ s t : State, ResponsesConsistent s → step s = .next t → ResponsesConsistent t

/-! ## Encoding -/

/-- R96: the four status codes; every 2-bit value is one of them. -/
def Obligations.StatusCodesCoverAllTwoBitValues : Prop :=
  Status.ok.code = 0b00#2 ∧ Status.illegalOp.code = 0b01#2 ∧ Status.length.code = 0b10#2 ∧
  Status.reservedField.code = 0b11#2 ∧
  (∀ c : BitVec 2, (Status.ofCode c).code = c) ∧ (∀ st : Status, Status.ofCode st.code = st)

/-- R46: the fields of a request word, and `REQ = {OP, CNT, RSV, B0, B1, B2}`. -/
def Obligations.RequestFieldsMakeUpTheWord : Prop :=
  (∀ req : Word, (Fields.ofWord req).toWord = req) ∧
  (∀ f : Fields, Fields.ofWord f.toWord = f) ∧
  (∀ f : Fields, f.toWord.toNat = f.op.toNat * 2 ^ 28 + f.cnt.toNat * 2 ^ 26 + f.rsv.toNat * 2 ^ 24 +
    f.b0.toNat * 2 ^ 16 + f.b1.toNat * 2 ^ 8 + f.b2.toNat)

/-- Decoding an encoded instruction gives it back, for every instruction and every operand. -/
def Obligations.DecodeOfEncode : Prop :=
  ∀ i : Instr, decode (encode i) = .instr i

/-- A word that decodes is the encoding of what it decodes to: each instruction has one word. -/
def Obligations.EncodeOfDecode : Prop :=
  ∀ (req : Word) (i : Instr), decode req = .instr i → encode i = req

/-- R55: a word decodes exactly when it matches a row of the opcode table, and then it matches one row only, that of
the instruction's operation. -/
def Obligations.DecodedWordsMatchExactlyOneTableRow : Prop :=
  ∀ req : Word,
    ((∃ i, decode req = .instr i) ↔ ∃ r ∈ opcodeTable, req &&& r.mask = r.matchBits) ∧
    (∀ i, decode req = .instr i →
      (opcodeTable.filter (fun r => r.hits req)).map Row.opcode = [i.opcode])

/-- Words written out from the encodings of R49 to R53 decode to the instructions they spell. -/
def Obligations.SpecEncodingsDecode : Prop :=
  decode 0b00010100000000100000000000000000#32 = .instr (.buildCr0 true false) ∧
  decode 0b00101000000011000000011100000000#32 = .instr (.buildCr1 12 7) ∧
  decode 0b00110100010110100000000000000000#32 = .instr (.decodeFault 0x5A) ∧
  decode 0b01001100000100000001100100000011#32 = .instr (.decodeCj 0x10 0x19 0x03) ∧
  decode 0b01011100111111100111000000100001#32 = .instr (.decodeTc 0xFE 0x70 0x21)

/-- R97: a request whose OP is 0x0 or 0x6 to 0xF is answered ILLEGAL_OP, whatever its other fields. -/
def Obligations.ReservedOpAnswersIllegalOp : Prop :=
  ∀ (s : State) (a : Agent) (req : Word) (rest : List HostInput),
    s.inputs = .action (.request a req) :: rest →
    req.extractLsb' 28 4 ∉ [0x1#4, 0x2#4, 0x3#4, 0x4#4, 0x5#4] →
    step s = .next { s with
      inputs := rest, issuer := a, rspValid := true, rspStatus := 0b01#2,
      rspOp := req.extractLsb' 28 4, rspData := 0#32, returned := ⟨a, .illegalOp, 0#32⟩ :: s.returned }

/-- R98: a defined OP with another CNT than it requires is answered LENGTH, too few and too many alike. -/
def Obligations.WrongCountAnswersLength : Prop :=
  ∀ (s : State) (a : Agent) (req : Word) (rest : List HostInput) (op : BitVec 4) (cnt : BitVec 2),
    s.inputs = .action (.request a req) :: rest →
    (op, cnt) ∈ [(0x1#4, 1#2), (0x2#4, 2#2), (0x3#4, 1#2), (0x4#4, 3#2), (0x5#4, 3#2)] →
    req.extractLsb' 28 4 = op → req.extractLsb' 26 2 ≠ cnt →
    step s = .next { s with
      inputs := rest, issuer := a, rspValid := true, rspStatus := 0b10#2,
      rspOp := op, rspData := 0#32, returned := ⟨a, .length, 0#32⟩ :: s.returned }

/-- R99: with OP defined and CNT right, a reserved bit set is answered RESERVED_FIELD; the masks are those of R54. -/
def Obligations.ReservedBitAnswersReservedField : Prop :=
  ∀ (s : State) (a : Agent) (req : Word) (rest : List HostInput)
    (op : BitVec 4) (cnt : BitVec 2) (reserved : Word),
    s.inputs = .action (.request a req) :: rest →
    (op, cnt, reserved) ∈ [(0x1#4, 1#2, 0x03FCFFFF#32), (0x2#4, 2#2, 0x0300F0FF#32),
      (0x3#4, 1#2, 0x0300FFFF#32), (0x4#4, 3#2, 0x03000000#32), (0x5#4, 3#2, 0x03000000#32)] →
    req.extractLsb' 28 4 = op → req.extractLsb' 26 2 = cnt → req &&& reserved ≠ 0#32 →
    step s = .next { s with
      inputs := rest, issuer := a, rspValid := true, rspStatus := 0b11#2,
      rspOp := op, rspData := 0#32, returned := ⟨a, .reservedField, 0#32⟩ :: s.returned }

/-- R102: a request that passes the three checks is answered OK, for every operand value. -/
def Obligations.WellFormedRequestAnswersOk : Prop :=
  ∀ (s : State) (a : Agent) (req : Word) (rest : List HostInput)
    (op : BitVec 4) (cnt : BitVec 2) (reserved : Word),
    s.inputs = .action (.request a req) :: rest →
    (op, cnt, reserved) ∈ [(0x1#4, 1#2, 0x03FCFFFF#32), (0x2#4, 2#2, 0x0300F0FF#32),
      (0x3#4, 1#2, 0x0300FFFF#32), (0x4#4, 3#2, 0x03000000#32), (0x5#4, 3#2, 0x03000000#32)] →
    req.extractLsb' 28 4 = op → req.extractLsb' 26 2 = cnt → req &&& reserved = 0#32 →
    ∃ data : Word, step s = .next { s with
      inputs := rest, issuer := a, rspValid := true, rspStatus := 0b00#2,
      rspOp := op, rspData := data, returned := ⟨a, .ok, data⟩ :: s.returned }

/-- A waiting request whose word decodes to an instruction runs exactly that instruction, for its issuer. -/
def Obligations.StepRunsTheDecodedInstruction : Prop :=
  ∀ (s : State) (a : Agent) (req : Word) (rest : List HostInput) (i : Instr),
    s.inputs = .action (.request a req) :: rest → decode req = .instr i →
    step s = exec i { s with inputs := rest, issuer := a }

/-- R66 (lines as terms: log entry 7), line by line: a line in range assembles to the word that has its arguments in
their fields, CNT as required and every reserved bit 0, a type letter standing for its code, and the word decodes to the
operation with these operands; `.word` assembles to its value; a line with an argument out of range assembles to
nothing. -/
def Obligations.AssembledLinesDecode : Prop :=
  (∀ o f : Nat, o < 2 → f < 2 →
    (AsmLine.buildCr0 o f).assemble = some (BitVec.ofNat 32 (0x14000000 + o * 2 ^ 17 + f * 2 ^ 16)) ∧
    decode (BitVec.ofNat 32 (0x14000000 + o * 2 ^ 17 + f * 2 ^ 16)) = .instr (.buildCr0 (o == 1) (f == 1))) ∧
  (∀ avg n : Nat, avg < 256 → n < 16 →
    (AsmLine.buildCr1 avg (.number n)).assemble = some (BitVec.ofNat 32 (0x28000000 + avg * 2 ^ 16 + n * 2 ^ 8)) ∧
    decode (BitVec.ofNat 32 (0x28000000 + avg * 2 ^ 16 + n * 2 ^ 8)) =
      .instr (.buildCr1 (BitVec.ofNat 8 avg) (BitVec.ofNat 4 n))) ∧
  (∀ (avg n : Nat) (letter : ThermocoupleType), avg < 256 →
    (letter, n) ∈ [(ThermocoupleType.B, 0), (.E, 1), (.J, 2), (.K, 3), (.N, 4), (.R, 5), (.S, 6), (.T, 7)] →
    (AsmLine.buildCr1 avg (.letter letter)).assemble =
      some (BitVec.ofNat 32 (0x28000000 + avg * 2 ^ 16 + n * 2 ^ 8))) ∧
  (∀ b : Nat, b < 256 →
    (AsmLine.decodeFault b).assemble = some (BitVec.ofNat 32 (0x34000000 + b * 2 ^ 16)) ∧
    decode (BitVec.ofNat 32 (0x34000000 + b * 2 ^ 16)) = .instr (.decodeFault (BitVec.ofNat 8 b))) ∧
  (∀ o m l : Nat, o < 256 → m < 256 → l < 256 →
    (AsmLine.decodeCj o m l).assemble = some (BitVec.ofNat 32 (0x4C000000 + o * 2 ^ 16 + m * 2 ^ 8 + l)) ∧
    decode (BitVec.ofNat 32 (0x4C000000 + o * 2 ^ 16 + m * 2 ^ 8 + l)) =
      .instr (.decodeCj (BitVec.ofNat 8 o) (BitVec.ofNat 8 m) (BitVec.ofNat 8 l))) ∧
  (∀ h m l : Nat, h < 256 → m < 256 → l < 256 →
    (AsmLine.decodeTc h m l).assemble = some (BitVec.ofNat 32 (0x5C000000 + h * 2 ^ 16 + m * 2 ^ 8 + l)) ∧
    decode (BitVec.ofNat 32 (0x5C000000 + h * 2 ^ 16 + m * 2 ^ 8 + l)) =
      .instr (.decodeTc (BitVec.ofNat 8 h) (BitVec.ofNat 8 m) (BitVec.ofNat 8 l))) ∧
  (∀ w : Nat, w < 2 ^ 32 → (AsmLine.word w).assemble = some (BitVec.ofNat 32 w)) ∧
  (∀ x y z : Nat,
    (2 ≤ x ∨ 2 ≤ y → (AsmLine.buildCr0 x y).assemble = none) ∧
    (256 ≤ x ∨ 16 ≤ y → (AsmLine.buildCr1 x (.number y)).assemble = none) ∧
    (256 ≤ x → ∀ letter, (AsmLine.buildCr1 x (.letter letter)).assemble = none) ∧
    (256 ≤ x → (AsmLine.decodeFault x).assemble = none) ∧
    (256 ≤ x ∨ 256 ≤ y ∨ 256 ≤ z →
      (AsmLine.decodeCj x y z).assemble = none ∧ (AsmLine.decodeTc x y z).assemble = none) ∧
    (2 ^ 32 ≤ x → (AsmLine.word x).assemble = none))

/-- R59: the codes of the eight types; codes 0x8 to 0xF name none, and BUILD_CR1 packs them unchanged. -/
def Obligations.ThermocoupleTypeCodes : Prop :=
  ([.B, .E, .J, .K, .N, .R, .S, .T] : List ThermocoupleType).map ThermocoupleType.code =
    [0x0#4, 0x1#4, 0x2#4, 0x3#4, 0x4#4, 0x5#4, 0x6#4, 0x7#4] ∧
  (∀ c : BitVec 4, ThermocoupleType.ofCode c = none ↔ 8 ≤ c.toNat) ∧
  (∀ t : ThermocoupleType, ThermocoupleType.ofCode t.code = some t) ∧
  (∀ (a : BitVec 8) (c : BitVec 4) (s : State),
    (resultData (.buildCr1 a c) s).map (fun d => d.extractLsb' 0 4) = some c)

/-! ## The codec's operations -/

/-- R67: BUILD_CR0 answers OK with `{~one_shot, one_shot, 0b00000, f50}` and changes nothing else; a word with its OP
is LENGTH, RESERVED_FIELD or the operation with its two operand bits. -/
def Obligations.BuildCr0Result : Prop :=
  (∀ (oneShot f50 : Bool) (s : State),
    let cr0 : Word := (BitVec.ofBool (!oneShot) ++ BitVec.ofBool oneShot ++ 0b00000#5 ++ BitVec.ofBool f50).setWidth 32
    exec (.buildCr0 oneShot f50) s = .next { s with
      rspValid := true, rspStatus := 0b00#2, rspOp := 0x1#4, rspData := cr0,
      returned := ⟨s.issuer, .ok, cr0⟩ :: s.returned }) ∧
  (∀ req : Word, req.extractLsb' 28 4 = 0x1#4 →
    (req.extractLsb' 26 2 ≠ 1#2 → decode req = .rejected .length) ∧
    (req.extractLsb' 26 2 = 1#2 → req &&& 0x03FCFFFF#32 ≠ 0#32 → decode req = .rejected .reservedField) ∧
    (req.extractLsb' 26 2 = 1#2 → req &&& 0x03FCFFFF#32 = 0#32 →
      decode req = .instr (.buildCr0 (req.getLsbD 17) (req.getLsbD 16))))

/-- R68 (the spec's own inference: "[derived: from rule R67]"): the four CR0 bytes BUILD_CR0 answers with; in each
exactly one of bits 7 and 6 is 1 and bits 5:1 are 0. -/
def Obligations.Cr0BytesAreTheFourOfTheTable : Prop :=
  (∀ s : State, resultData (.buildCr0 false false) s = some 0x80#32 ∧
    resultData (.buildCr0 false true) s = some 0x81#32 ∧
    resultData (.buildCr0 true false) s = some 0x40#32 ∧
    resultData (.buildCr0 true true) s = some 0x41#32) ∧
  (∀ (o f : Bool) (s : State) (d : Word), resultData (.buildCr0 o f) s = some d →
    d.getLsbD 7 = !d.getLsbD 6 ∧ d.extractLsb' 1 5 = 0#5)

/-- R71: BUILD_CR1 answers OK with `zext_8(tc) | (level(avg) << 4)` for every count and every type code, and changes
nothing else; a word with its OP is LENGTH, RESERVED_FIELD or the operation with its two operands. -/
def Obligations.BuildCr1Result : Prop :=
  (∀ (avgSel : BitVec 8) (tcType : BitVec 4) (s : State),
    let cr1 : Byte := tcType.setWidth 8 ||| BitVec.ofNat 8 (level avgSel.toNat) <<< 4
    exec (.buildCr1 avgSel tcType) s = .next { s with
      rspValid := true, rspStatus := 0b00#2, rspOp := 0x2#4, rspData := cr1.setWidth 32,
      returned := ⟨s.issuer, .ok, cr1.setWidth 32⟩ :: s.returned }) ∧
  (∀ req : Word, req.extractLsb' 28 4 = 0x2#4 →
    (req.extractLsb' 26 2 ≠ 2#2 → decode req = .rejected .length) ∧
    (req.extractLsb' 26 2 = 2#2 → req &&& 0x0300F0FF#32 ≠ 0#32 → decode req = .rejected .reservedField) ∧
    (req.extractLsb' 26 2 = 2#2 → req &&& 0x0300F0FF#32 = 0#32 →
      decode req = .instr (.buildCr1 (req.extractLsb' 16 8) (req.extractLsb' 8 4))))

/-- R70 (the spec's own inference: "[derived: from rule R69 …]"): the halving loop computes the floor of the base-2
logarithm, for counts of any width; for 8-bit counts the level is at most 7. -/
def Obligations.LevelIsFloorOfLog2 : Prop :=
  (∀ a : Nat, a ≤ 1 → level a = 0) ∧
  (∀ a : Nat, 2 ≤ a → 2 ^ level a ≤ a ∧ a < 2 ^ (level a + 1)) ∧
  (∀ a : BitVec 8, level a.toNat ≤ 7)

/-- R74 (for counts that are no power of two the spec's own inference: "[derived: from rule R71]"): the level bits of
the five named counts, the low four bits being the type's, and the type bits of every count. -/
def Obligations.Cr1FieldsOfNamedCounts : Prop :=
  (∀ (tc : BitVec 4) (s : State) (a : BitVec 8) (l : BitVec 3),
    (a, l) ∈ [(1#8, 0#3), (2#8, 1#3), (4#8, 2#3), (8#8, 3#3), (16#8, 4#3)] →
    ∃ d, resultData (.buildCr1 a tc) s = some d ∧ d.extractLsb' 4 3 = l ∧ d.extractLsb' 0 4 = tc) ∧
  (∀ (a : BitVec 8) (tc : BitVec 4) (s : State),
    ∃ d, resultData (.buildCr1 a tc) s = some d ∧ d.extractLsb' 0 4 = tc)

/-- R73: BUILD_CR1 of a count that is no power of two does what BUILD_CR1 of the next lower power of two does, with
status OK; 3 gives level 1 and 12 gives level 3. -/
def Obligations.CountsRoundDownToAPowerOfTwo : Prop :=
  (∀ (a b : BitVec 8) (k : Nat) (tc : BitVec 4) (s : State),
    b.toNat = 2 ^ k → 2 ^ k ≤ a.toNat → a.toNat < 2 ^ (k + 1) →
    ∃ t, exec (.buildCr1 a tc) s = .next t ∧ exec (.buildCr1 b tc) s = .next t ∧ t.rspStatus = 0b00#2) ∧
  level 3 = 1 ∧ level 12 = 3

/-- R80 (the spec's own inference: "[derived: from rule R70]"): counts from 32 up give levels 5, 6 or 7; and in every
CR1 byte bit 7 is clear (R58). -/
def Obligations.Cr1LevelsAboveTheSourceRange : Prop :=
  (∀ (a : BitVec 8) (tc : BitVec 4) (s : State), 32 ≤ a.toNat →
    ∃ d, resultData (.buildCr1 a tc) s = some d ∧ d.extractLsb' 4 3 ∈ [5#3, 6#3, 7#3]) ∧
  (∀ (a : BitVec 8) (tc : BitVec 4) (s : State),
    ∃ d, resultData (.buildCr1 a tc) s = some d ∧ d.toNat < 128)

/-- R75: DECODE_FAULT answers OK with the byte unchanged, and changes nothing else; a word with its OP is LENGTH,
RESERVED_FIELD or the operation with its byte. -/
def Obligations.DecodeFaultResult : Prop :=
  (∀ (sr : Byte) (s : State),
    exec (.decodeFault sr) s = .next { s with
      rspValid := true, rspStatus := 0b00#2, rspOp := 0x3#4, rspData := sr.setWidth 32,
      returned := ⟨s.issuer, .ok, sr.setWidth 32⟩ :: s.returned }) ∧
  (∀ req : Word, req.extractLsb' 28 4 = 0x3#4 →
    (req.extractLsb' 26 2 ≠ 1#2 → decode req = .rejected .length) ∧
    (req.extractLsb' 26 2 = 1#2 → req &&& 0x0300FFFF#32 ≠ 0#32 → decode req = .rejected .reservedField) ∧
    (req.extractLsb' 26 2 = 1#2 → req &&& 0x0300FFFF#32 = 0#32 →
      decode req = .instr (.decodeFault (req.extractLsb' 16 8))))

/-- R76, R60: a fault kind is in the set of a result exactly when its bit of the table is 1, and the set of a fault
byte is empty exactly when the byte is 0. -/
def Obligations.FaultSetIsReadOffTheBitTable : Prop :=
  (∀ (d : Word) (k : FaultKind) (n : Nat),
    (k, n) ∈ [(FaultKind.thermocoupleOpenCircuit, 0), (.overUnderVoltage, 1), (.thermocoupleLow, 2),
      (.thermocoupleHigh, 3), (.coldJunctionLow, 4), (.coldJunctionHigh, 5),
      (.thermocoupleOutOfRange, 6), (.coldJunctionOutOfRange, 7)] →
    (k ∈ faultSet d ↔ d.getLsbD n = true)) ∧
  (∀ (sr : Byte) (s t : State), exec (.decodeFault sr) s = .next t → (faultSet t.rspData = [] ↔ t.rspData = 0#32))

/-! ## The decoder's operations -/

/-- R81: DECODE_CJ answers OK with the value of its pseudocode, and changes nothing else; a word with its OP is
LENGTH, RESERVED_FIELD or the operation with its three bytes. -/
def Obligations.DecodeCjResult : Prop :=
  (∀ (offset msb lsb : Byte) (s : State),
    let raw : Int := (((msb.toNat * 256 + lsb.toNat) / 4 : Nat) : Int) + (offset.toNat : Int)
    let v : Int := if msb.getLsbD 7 then raw - 0x4000 else raw
    exec (.decodeCj offset msb lsb) s = .next { s with
      rspValid := true, rspStatus := 0b00#2, rspOp := 0x4#4, rspData := BitVec.ofInt 32 v,
      returned := ⟨s.issuer, .ok, BitVec.ofInt 32 v⟩ :: s.returned }) ∧
  (∀ req : Word, req.extractLsb' 28 4 = 0x4#4 →
    (req.extractLsb' 26 2 ≠ 3#2 → decode req = .rejected .length) ∧
    (req.extractLsb' 26 2 = 3#2 → req &&& 0x03000000#32 ≠ 0#32 → decode req = .rejected .reservedField) ∧
    (req.extractLsb' 26 2 = 3#2 → req &&& 0x03000000#32 = 0#32 →
      decode req = .instr (.decodeCj (req.extractLsb' 16 8) (req.extractLsb' 8 8) (req.extractLsb' 0 8))))

/-- R85 (its closed form is the spec's own inference: "[derived: from rule R81]"): in closed form the result is the
unsigned field plus the offset less 0x4000 for the sign bit, that is the signed 14-bit field plus the unsigned offset,
and it stands for that many 64ths of a degree. -/
def Obligations.ColdJunctionClosedForm : Prop :=
  ∀ (offset msb lsb : Byte) (s t : State), exec (.decodeCj offset msb lsb) s = .next t →
    t.rspData.toInt = (((msb ++ lsb).extractLsb' 2 14).toNat : Int) + (offset.toNat : Int)
      - 0x4000 * ((msb.getLsbD 7).toNat : Int) ∧
    t.rspData.toInt = ((msb ++ lsb).extractLsb' 2 14).toInt + (offset.toNat : Int) ∧
    cjCelsius t.rspData = (t.rspData.toInt : Rat) * (1 / 64)

/-- R86 (the spec's own inference: "[derived: from rule R85]"): the range of the result, by the sign bit, its extreme
results, and the range in degrees Celsius. -/
def Obligations.ColdJunctionRange : Prop :=
  (∀ (offset msb lsb : Byte) (s t : State), exec (.decodeCj offset msb lsb) s = .next t →
    (msb.getLsbD 7 = false → 0 ≤ t.rspData.toInt ∧ t.rspData.toInt ≤ 8446) ∧
    (msb.getLsbD 7 = true → -8192 ≤ t.rspData.toInt ∧ t.rspData.toInt ≤ 254) ∧
    -128 ≤ cjCelsius t.rspData ∧ cjCelsius t.rspData ≤ 13196875 / 100000) ∧
  (∀ s : State, resultData (.decodeCj 0x00 0x80 0x00) s = some (BitVec.ofInt 32 (-8192)) ∧
    resultData (.decodeCj 0xFF 0x7F 0xFF) s = some (BitVec.ofInt 32 8446))

/-- R87 (the spec's own inference: "[derived: from rule R85]"): the corner cases of DECODE_CJ: the low two bits of lsb
never matter; with the offset zero the result is the signed field; the offset is added unsigned, whatever its bit 7;
and the four values. -/
def Obligations.ColdJunctionCornerCases : Prop :=
  (∀ (offset msb lsb lsb' : Byte) (s : State), lsb.extractLsb' 2 6 = lsb'.extractLsb' 2 6 →
    resultData (.decodeCj offset msb lsb) s = resultData (.decodeCj offset msb lsb') s) ∧
  (∀ (offset msb lsb : Byte) (s : State),
    ∃ d0 d, resultData (.decodeCj 0 msb lsb) s = some d0 ∧ resultData (.decodeCj offset msb lsb) s = some d ∧
      d0.toInt = ((msb ++ lsb).extractLsb' 2 14).toInt ∧ d.toInt = d0.toInt + (offset.toNat : Int)) ∧
  (∀ s : State, resultData (.decodeCj 0x00 0x19 0x03) s = some (BitVec.ofInt 32 1600) ∧
    resultData (.decodeCj 0x00 0xFF 0xFC) s = some (BitVec.ofInt 32 (-1)) ∧
    resultData (.decodeCj 0xFF 0xFF 0xFC) s = some (BitVec.ofInt 32 254) ∧
    resultData (.decodeCj 0xFF 0x7F 0xFC) s = some (BitVec.ofInt 32 8446))

/-- R88: DECODE_TC answers OK with the value of its pseudocode, and changes nothing else; a word with its OP is
LENGTH, RESERVED_FIELD or the operation with its three bytes. -/
def Obligations.DecodeTcResult : Prop :=
  (∀ (high mid low : Byte) (s : State),
    let raw : Int := (((high.toNat * 65536 + mid.toNat * 256 + low.toNat) / 32 : Nat) : Int)
    let v : Int := if high.getLsbD 7 then raw - 0x80000 else raw
    exec (.decodeTc high mid low) s = .next { s with
      rspValid := true, rspStatus := 0b00#2, rspOp := 0x5#4, rspData := BitVec.ofInt 32 v,
      returned := ⟨s.issuer, .ok, BitVec.ofInt 32 v⟩ :: s.returned }) ∧
  (∀ req : Word, req.extractLsb' 28 4 = 0x5#4 →
    (req.extractLsb' 26 2 ≠ 3#2 → decode req = .rejected .length) ∧
    (req.extractLsb' 26 2 = 3#2 → req &&& 0x03000000#32 ≠ 0#32 → decode req = .rejected .reservedField) ∧
    (req.extractLsb' 26 2 = 3#2 → req &&& 0x03000000#32 = 0#32 →
      decode req = .instr (.decodeTc (req.extractLsb' 16 8) (req.extractLsb' 8 8) (req.extractLsb' 0 8))))

/-- R90 (its closed form is the spec's own inference: "[derived: from rule R88 and rule R89]"): the result is the
unsigned field less 0x80000 for the sign bit, that is the signed 19-bit field, and it stands for that many 128ths of a
degree. -/
def Obligations.ThermocoupleClosedForm : Prop :=
  ∀ (high mid low : Byte) (s t : State), exec (.decodeTc high mid low) s = .next t →
    t.rspData.toInt = (((high ++ mid ++ low).extractLsb' 5 19).toNat : Int)
      - 0x80000 * ((high.getLsbD 7).toNat : Int) ∧
    t.rspData.toInt = ((high ++ mid ++ low).extractLsb' 5 19).toInt ∧
    tcCelsius t.rspData = (t.rspData.toInt : Rat) * (1 / 128)

/-- R91 (the spec's own inference: "[derived: from rule R90]"): the range of the result, its extreme results, and the
range in degrees Celsius. -/
def Obligations.ThermocoupleRange : Prop :=
  (∀ (high mid low : Byte) (s t : State), exec (.decodeTc high mid low) s = .next t →
    -262144 ≤ t.rspData.toInt ∧ t.rspData.toInt ≤ 262143 ∧
    -2048 ≤ tcCelsius t.rspData ∧ tcCelsius t.rspData ≤ 20479921875 / 10000000) ∧
  (∀ s : State, resultData (.decodeTc 0x80 0x00 0x00) s = some (BitVec.ofInt 32 (-262144)) ∧
    resultData (.decodeTc 0x7F 0xFF 0xE0) s = some (BitVec.ofInt 32 262143))

/-- R92 (the spec's own inference: "[derived: from rule R90]"): the corner cases of DECODE_TC: the low five bits never
matter; the four values. -/
def Obligations.ThermocoupleCornerCases : Prop :=
  (∀ (high mid low low' : Byte) (s : State), low.extractLsb' 5 3 = low'.extractLsb' 5 3 →
    resultData (.decodeTc high mid low) s = resultData (.decodeTc high mid low') s) ∧
  (∀ s : State, resultData (.decodeTc 0xFF 0xFF 0xFF) s = some (BitVec.ofInt 32 (-1)) ∧
    resultData (.decodeTc 0xFF 0xFF 0xE0) s = some (BitVec.ofInt 32 (-1)) ∧
    resultData (.decodeTc 0x00 0x00 0x1F) s = some (BitVec.ofInt 32 0) ∧
    resultData (.decodeTc 0xFE 0x70 0x00) s = some (BitVec.ofInt 32 (-3200)))

/-! ## All operations -/

/-- R79, R94: the frame of all five operations. An operation changes the four response registers and hands one pair
to the issuer; everything around the block is unchanged. -/
def Obligations.OperationFrame : Prop :=
  ∀ (i : Instr) (s t : State), exec i s = .next t →
    SameSurroundings s t ∧
    t.rspValid = true ∧ t.returned = ⟨s.issuer, .ok, t.rspData⟩ :: s.returned ∧ t.rspStatus = 0b00#2

/-- R18 (the spec's own inference: "[derived: from 40_codec.md rule R79 and 41_temperature.md rule R94]"): an
operation's answer depends on its own request word alone: from any two states the registers end up the same. -/
def Obligations.AnswerDependsOnTheRequestAlone : Prop :=
  ∀ (s s' t t' : State) (a a' : Agent) (req : Word) (rest rest' : List HostInput),
    s.inputs = .action (.request a req) :: rest → s'.inputs = .action (.request a' req) :: rest' →
    step s = .next t → step s' = .next t' →
    t.rspStatus = t'.rspStatus ∧ t.rspOp = t'.rspOp ∧ t.rspData = t'.rspData ∧
    t.returned.head?.map Response.status = t'.returned.head?.map Response.status ∧
    t.returned.head?.map Response.data = t'.returned.head?.map Response.data

/-- A step answers a request as the opcode table's rows and the closed forms of the rules say (`answer`). -/
def Obligations.StepRefinesTheClosedFormAnswer : Prop :=
  ∀ (s : State) (a : Agent) (req : Word) (rest : List HostInput),
    s.inputs = .action (.request a req) :: rest →
    step s = .next { s with
      inputs := rest, issuer := a, rspValid := true, rspStatus := (answer req).1.code,
      rspOp := req.extractLsb' 28 4, rspData := (answer req).2,
      returned := ⟨a, (answer req).1, (answer req).2⟩ :: s.returned }

/-- R42 (that a response depends on its request alone is the spec's own inference; the waiting inputs are the model's
list, log entry 1): requests are processed one at a time in the order issued: running a sequence of requests of any
agents hands each its own answer, in that order, and touches nothing around the block: not what the host observed, the
bus, its log, the transport result, the device, the driver or the free values. -/
def Obligations.RequestSequenceIsAnsweredInOrder : Prop :=
  ∀ (rs : List (Agent × Word)) (rest : List HostInput) (s : State),
    s.inputs = rs.map (fun p => HostInput.action (.request p.1 p.2)) ++ rest →
    ∃ t, core.run rs.length s = .next t ∧ t.inputs = rest ∧
      t.returned = (rs.map (fun p => (⟨p.1, (answer p.2).1, (answer p.2).2⟩ : Response))).reverse ++ s.returned ∧
      t.observed = s.observed ∧ t.bus = s.bus ∧ t.busLog = s.busLog ∧ t.transport = s.transport ∧
      t.device = s.device ∧ t.driver = s.driver ∧ t.draws = s.draws

/-- R109 (the list of returned pairs is the model's, log entry 3): an agent's own pair stands whatever requests other
agents issue after it, and the other agent's last pair is the new response. -/
def Obligations.OwnResponseOutlivesOtherAgentsRequests : Prop :=
  ∀ (s t : State) (a b : Agent) (req : Word) (rest : List HostInput),
    s.inputs = .action (.request b req) :: rest → a ≠ b → step s = .next t →
    latestFor a t.returned = latestFor a s.returned ∧
      latestFor b t.returned = some ⟨b, Status.ofCode t.rspStatus, t.rspData⟩

/-! ## The device, the bus and the driver (host context) -/

/-- R41: an overlap faults. What an overlap is, is the model's reading (log entry 14): a bus action of another agent
inside a transaction, or chip-select going low again. -/
def Obligations.OverlappingTransactionsFault : Prop :=
  ∀ (s : State) (a o : Agent) (b : BusAction) (rest : List HostInput),
    s.inputs = .action (.bus a b) :: rest → busOwner s.bus = some o → (o ≠ a ∨ b = .csLow) →
    step s = .fault .overlappingTransactions

/-- R31, R30 (the settled device and the intact delivery are the model's, log entries 10, 20 and 32): from an idle bus a
whole read is its four actions and returns the register's bytes in order; chip-select is high again. For the temperature
registers the device is settled; Fault Status is read in any state. -/
def Obligations.DevReadReturnsTheRegisterBytes : Prop :=
  ∀ (s : State) (a : Agent), s.bus = .idle →
    (s.device.settled = true → ∃ t, performAll (devRead a .coldJunction 3 (.intact 3)) s = .next t ∧ t.bus = .idle ∧
      t.transport = .received [s.device.coldJunction.first, s.device.coldJunction.second, s.device.coldJunction.third] ∧
      t.busLog = [.csHigh, .read 3 (.intact 3), .write 0x09, .csLow] ++ s.busLog) ∧
    (s.device.settled = true → ∃ t, performAll (devRead a .thermocouple 3 (.intact 3)) s = .next t ∧ t.bus = .idle ∧
      t.transport = .received [s.device.thermocouple.first, s.device.thermocouple.second, s.device.thermocouple.third] ∧
      t.busLog = [.csHigh, .read 3 (.intact 3), .write 0x0C, .csLow] ++ s.busLog) ∧
    (∃ t, performAll (devRead a .faultStatus 1 (.intact 1)) s = .next t ∧ t.bus = .idle ∧
      t.transport = .received [s.device.faultStatus] ∧
      t.busLog = [.csHigh, .read 1 (.intact 1), .write 0x0F, .csLow] ++ s.busLog)

/-- R32: from an idle bus a whole write is its four actions, the address byte with bit 7 set. That every byte, one the
block cannot produce too, lands in the register and leaves the other configuration register alone is the model's choice
(log entry 26). -/
def Obligations.DevWriteWritesTheRegister : Prop :=
  ∀ (s : State) (a : Agent) (v : Byte), s.bus = .idle →
    (∃ t, performAll (devWrite a .cr0 v) s = .next t ∧ t.bus = .idle ∧ t.device.cr0 = v ∧
      t.device.cr1 = s.device.cr1 ∧ t.busLog = [.csHigh, .write v, .write 0x80, .csLow] ++ s.busLog ∧
      SameBlock s t) ∧
    (∃ t, performAll (devWrite a .cr1 v) s = .next t ∧ t.bus = .idle ∧ t.device.cr1 = v ∧
      t.device.cr0 = s.device.cr0 ∧ t.busLog = [.csHigh, .write v, .write 0x81, .csLow] ++ s.busLog ∧
      SameBlock s t)

/-- R36 (that unlisted writes are refused at the address byte, and a second data phase as a malformed frame, is the
model's choice: log entry 15): with chip-select just low, an address byte whose address is not one of the five, or
that reads CR0 or CR1, or that writes another register, is refused; so is a read of another length than the
register's; and nothing follows a frame's data phase but chip-select going high, so no write has a second byte. -/
def Obligations.UnlistedDeviceAccessIsRefused : Prop :=
  (∀ (s : State) (a : Agent) (b : Byte) (rest : List HostInput),
    s.inputs = .action (.bus a (.write b)) :: rest → s.bus = .selected a →
    b ∉ [0x09#8, 0x0C#8, 0x0F#8, 0x80#8, 0x81#8] → step s = .refused .deviceAccess) ∧
  (∀ (s : State) (a : Agent) (r : DevReg) (n : Nat) (d : Delivery) (rest : List HostInput),
    s.inputs = .action (.bus a (.read n d)) :: rest → s.bus = .reading a r →
    (r, n) ∉ [(DevReg.coldJunction, 3), (.thermocouple, 3), (.faultStatus, 1)] →
    step s = .refused .deviceAccess) ∧
  (∀ (s : State) (a : Agent) (b : BusAction) (result : TransportResult) (rest : List HostInput),
    s.inputs = .action (.bus a b) :: rest → s.bus = .done a result →
    (∃ v, b = .write v) ∨ (∃ n d, b = .read n d) → step s = .refused .malformedFrame)

/-- R39, R40: a whole thermocouple read clears DRDY; a cold-junction read leaves a high DRDY high and a low one to a
draw; a Fault Status read leaves it as it was (log entry 13; the draw: log entry 12). None changes the driver's mode. -/
def Obligations.DrdyAfterADeviceRead : Prop :=
  ∀ (s : State) (a : Agent), s.bus = .idle →
    (∃ t, performAll (devRead a .thermocouple 3 (.intact 3)) s = .next t ∧
      t.device.drdyLow = false ∧ t.driver = s.driver) ∧
    (∃ t k, performAll (devRead a .coldJunction 3 (.intact 3)) s = .next t ∧
      t.device.drdyLow = (s.device.drdyLow && Config.freeBit k) ∧ t.driver = s.driver) ∧
    (∃ t, performAll (devRead a .faultStatus 1 (.intact 1)) s = .next t ∧
      t.device.drdyLow = s.device.drdyLow ∧ t.driver = s.driver)

/-- R33 (and log entry 16): chip-select raised inside an incomplete frame ends the transaction: the bus is idle, the
condition is "transport unavailable", and the block is untouched. -/
def Obligations.CutFrameLeavesTheBusIdle : Prop :=
  ∀ (s : State) (a : Agent) (r : DevReg) (rest : List HostInput),
    s.inputs = .action (.bus a .csHigh) :: rest →
    (s.bus = .selected a ∨ s.bus = .reading a r ∨ s.bus = .writing a r) →
    ∃ t, step s = .next t ∧ t.bus = .idle ∧ t.transport = .unavailable ∧ SameBlock s t

/-- The bus stays inside the frames of R31 to R33 and the accesses of R36 through every step. -/
def Obligations.StepKeepsTheBusWellFramed : Prop :=
  ∀ s t : State, BusWellFramed s → step s = .next t → BusWellFramed t

/-- The bus is well framed at reset. -/
def Obligations.ResetStateIsWellFramed : Prop :=
  BusWellFramed State.reset

/-- R44, R33 (calls as whole steps: log entry 17): a driver call that goes on from an idle bus leaves the bus idle,
CR0 as it was or one of the block's four bytes, and CR1 as it was or a byte with bit 7 clear. -/
def Obligations.DriverCallsWriteOnlyBlockResults : Prop :=
  ∀ (s t : State) (a : Agent) (c : DriverCall) (rest : List HostInput),
    s.inputs = .call a c :: rest → s.bus = .idle → step s = .next t →
    t.bus = .idle ∧ (t.device.cr0 = s.device.cr0 ∨ isCr0Byte t.device.cr0 = true) ∧
      (t.device.cr1 = s.device.cr1 ∨ isCr1Byte t.device.cr1 = true)

/-- R119 (calls as whole steps: log entry 17; falling edges: log entry 22; that the call goes on and its write succeeds:
log entry 29): DRDY set-up from any state of an idle bus
reads the thermocouple register once, then writes CR0 for continuous mode; after it a conversion makes a falling edge
whatever DRDY was before. R125: the set-up core gives the discarded bytes and the byte to write. -/
def Obligations.DrdySetupDiscardsThenEnablesContinuous : Prop :=
  ∀ (s : State) (a : Agent) (f50 : Bool) (rest : List HostInput) (d : Driver),
    s.inputs = .call a (.setupDrdy f50 (.intact 3)) :: rest → s.bus = .idle → s.driver = some d →
    ∃ t, step s = .next t ∧ t.inputs = rest ∧ t.bus = .idle ∧
      t.device.cr0 = (if f50 then 0x81#8 else 0x80#8) ∧ t.device.drdyLow = false ∧
      t.driver = some { d with mode := .continuous } ∧
      t.busLog = [.csHigh, .write (if f50 then 0x81#8 else 0x80#8), .write 0x80, .csLow,
        .csHigh, .read 3 (.intact 3), .write 0x0C, .csLow] ++ s.busLog ∧
      (∀ (cj tc : Bytes3) (sr : Byte),
        (conversionDone cj tc sr t).device.fallingEdges = s.device.fallingEdges + 1) ∧
      ∃ bytes, bytes.length = 3 ∧ setupDrdyCore a f50 (.intact 3) { s with inputs := rest } =
        some (bytes, if f50 then 0x81#8 else 0x80#8)

/-- R124, R116 (log entries 17, 18 and 20; that a call's write succeeds: log entry 29): construction writes CR1 only
and enters `Continuous`; a one-shot request writes CR0 with one_shot and enters `OneShotPending` from any mode. R103
(a): construction with an invalid count or type is refused. -/
def Obligations.ConstructionAndOneShotTransitions : Prop :=
  (∀ (s : State) (a : Agent) (avg : Byte) (tc : BitVec 4) (rest : List HostInput),
    s.inputs = .call a (.construct avg tc) :: rest → s.bus = .idle →
    avg ∈ [1#8, 2#8, 4#8, 8#8, 16#8] → tc.toNat < 8 →
    ∃ t, step s = .next t ∧ t.bus = .idle ∧ t.device = { s.device with cr1 := cr1Byte avg tc } ∧
      t.driver = some ⟨tc, BitVec.ofNat 3 (level avg.toNat), .continuous⟩) ∧
  (∀ (s : State) (a : Agent) (f50 : Bool) (rest : List HostInput) (d : Driver),
    s.inputs = .call a (.requestOneShot f50) :: rest → s.bus = .idle → s.driver = some d →
    ∃ t, step s = .next t ∧ t.bus = .idle ∧
      t.device = { s.device with cr0 := (if f50 then 0x41#8 else 0x40#8), settled := false } ∧
      t.driver = some { d with mode := .oneShotPending }) ∧
  (∀ (s : State) (a : Agent) (avg : Byte) (tc : BitVec 4) (rest : List HostInput),
    s.inputs = .call a (.construct avg tc) :: rest → (avg ∉ [1#8, 2#8, 4#8, 8#8, 16#8] ∨ 8 ≤ tc.toNat) →
    step s = .refused .invalidConfiguration)

/-- R124 (log entries 10, 17, 20, 24 and 32; that a call meets no failed frame: log entry 29): the driver's two
temperature reads, from a settled device and with the first bytes delivered intact, change no mode; three bytes are
answered OK with the decode of the register's bytes, fewer are answered LENGTH (R98). -/
def Obligations.TemperatureReadsDecodeWithoutChangingMode : Prop :=
  (∀ (s : State) (a : Agent) (got : Nat) (rest : List HostInput) (d : Driver),
    s.inputs = .call a (.readThermocouple (.intact got)) :: rest → s.bus = .idle → s.driver = some d →
    s.device.settled = true → got ≤ 3 →
    ∃ t, step s = .next t ∧ t.driver = some d ∧ t.rspOp = 0x5#4 ∧
      (got < 3 → t.rspStatus = 0b10#2 ∧ t.rspData = 0#32) ∧
      (got = 3 → t.rspStatus = 0b00#2 ∧ t.rspData.toInt =
        ((s.device.thermocouple.first ++ s.device.thermocouple.second ++ s.device.thermocouple.third).extractLsb'
          5 19).toInt)) ∧
  (∀ (s : State) (a : Agent) (got : Nat) (rest : List HostInput) (d : Driver),
    s.inputs = .call a (.readColdJunction (.intact got)) :: rest → s.bus = .idle → s.driver = some d →
    s.device.settled = true → got ≤ 3 →
    ∃ t, step s = .next t ∧ t.driver = some d ∧ t.rspOp = 0x4#4 ∧
      (got < 3 → t.rspStatus = 0b10#2 ∧ t.rspData = 0#32) ∧
      (got = 3 → t.rspStatus = 0b00#2 ∧ t.rspData.toInt =
        ((s.device.coldJunction.second ++ s.device.coldJunction.third).extractLsb' 2 14).toInt +
          (s.device.coldJunction.first.toNat : Int)))

/-- R118, U4 (log entries 12 and 20): after a one-shot request, and before the conversion is done, a whole
thermocouple or cold-junction read returns free bytes, whatever the registers held. -/
def Obligations.ReadInsideTheOneShotWaitIsUnconstrained : Prop :=
  ∀ (s : State) (a : Agent), s.bus = .idle → s.device.settled = false →
    (∃ t k, performAll (devRead a .thermocouple 3 (.intact 3)) s = .next t ∧
      t.transport = .received [Config.freeByte k, Config.freeByte (k + 1), Config.freeByte (k + 2)]) ∧
    (∃ t k, performAll (devRead a .coldJunction 3 (.intact 3)) s = .next t ∧
      t.transport = .received [Config.freeByte k, Config.freeByte (k + 1), Config.freeByte (k + 2)])

/-- R109, R21, R101 (log entries 5 and 26; that the byte is in the register before chip-select goes high: log entry
28): a device write of a result takes the agent's own last pair, whatever other agents were handed since and whatever
the response registers hold. Without a pair it faults, with an error pair it faults, and with an OK pair, the address
byte of CR0 or CR1 written, the low byte of its data goes on the bus and into the register. -/
def Obligations.DeviceWriteTakesTheAgentsOwnResult : Prop :=
  (∀ (s : State) (a : Agent) (rest : List HostInput), s.inputs = .action (.busWriteResult a) :: rest →
    (∀ r ∈ s.returned, r.agent ≠ a) → step s = .fault .noResult) ∧
  (∀ (s : State) (a : Agent) (rest : List HostInput) (newer older : List Response) (r : Response),
    s.inputs = .action (.busWriteResult a) :: rest → s.returned = newer ++ r :: older →
    (∀ x ∈ newer, x.agent ≠ a) → r.agent = a →
    (r.status ≠ .ok → step s = .fault .errorDataUsed) ∧
    (r.status = .ok → s.bus = .writing a .cr0 → ∃ t, step s = .next t ∧ t.bus = .done a .written ∧
      t.busLog = .write (r.data.extractLsb' 0 8) :: s.busLog ∧ t.device.cr0 = r.data.extractLsb' 0 8 ∧
      t.device.cr1 = s.device.cr1 ∧ SameBlock s t) ∧
    (r.status = .ok → s.bus = .writing a .cr1 → ∃ t, step s = .next t ∧ t.bus = .done a .written ∧
      t.busLog = .write (r.data.extractLsb' 0 8) :: s.busLog ∧ t.device.cr1 = r.data.extractLsb' 0 8 ∧
      t.device.cr0 = s.device.cr0 ∧ SameBlock s t))

/-- U12, N8 (log entry 12; DRDY: log entry 13; the settled flag stays: log entry 32; a cut frame: log entry 16; calls
as whole steps: log entry 17; the point of effect: log entry 28; calls meet no failed frame: log entry 29): the
driver's fault read is answered with the Fault Status byte as it stood, faults or not (R104), and leaves in the
register a free value and the rest of the device as it was. So does a read of the register that was garbled, came
short or was cut. -/
def Obligations.FaultStatusIsFreeAfterARead : Prop :=
  (∀ (s : State) (a : Agent) (rest : List HostInput) (d : Driver),
    s.inputs = .call a (.readFault (.intact 1)) :: rest → s.bus = .idle → s.driver = some d →
    ∃ t, step s = .next t ∧ t.bus = .idle ∧ t.driver = some d ∧ t.rspOp = 0x3#4 ∧ t.rspStatus = 0b00#2 ∧
      t.rspData = s.device.faultStatus.setWidth 32 ∧
      t.device = { s.device with faultStatus := Config.freeByte s.draws } ∧ t.draws = s.draws + 1) ∧
  (∀ (s : State) (a : Agent) (b : BusAction) (rest : List HostInput),
    s.inputs = .action (.bus a b) :: rest → s.bus = .reading a .faultStatus →
    (b = .csHigh ∨ (∃ got, got ≤ 1 ∧ b = .read 1 (.intact got)) ∨
      ∃ bytes, bytes.length ≤ 1 ∧ b = .read 1 (.garbled bytes)) →
    ∃ t, step s = .next t ∧ t.device = { s.device with faultStatus := Config.freeByte s.draws } ∧
      t.draws = s.draws + 1 ∧ SameBlock s t)

/-- R105, R119, R104 (log entries 10, 20, 22, 31 and 33): a conversion gives the device's temperature and fault
registers their new contents, drives DRDY low, an edge exactly when it was high, and makes the temperature bytes
reliable exactly when it reports no fault; the configuration registers and everything but the device stay. -/
def Obligations.ConversionUpdatesTheDeviceOnly : Prop :=
  ∀ (s : State) (cj tc : Bytes3) (sr : Byte) (rest : List HostInput),
    s.inputs = .action (.conversionDone cj tc sr) :: rest →
    step s = .next { s with
      inputs := rest
      device := {
        cr0 := s.device.cr0, cr1 := s.device.cr1, coldJunction := cj, thermocouple := tc, faultStatus := sr,
        drdyLow := true, fallingEdges := (if s.device.drdyLow then s.device.fallingEdges else s.device.fallingEdges + 1),
        settled := decide (sr = 0#8) } }
end

