-- ==== Sys2Proof/Laws/State.lean ====
section
/-! SUPPORT. The field lemmas of the state updates: one per field per update, true by `rfl`. -/

namespace Sys2Proof.Machine

/-! ## `respond` and `raiseStatus` -/

@[simp] theorem respond_rspValid (op : BitVec 4) (st : Status) (data : Word) (s : State) :
    (respond op st data s).rspValid = true := rfl
@[simp] theorem respond_rspStatus (op : BitVec 4) (st : Status) (data : Word) (s : State) :
    (respond op st data s).rspStatus = st.code := rfl
@[simp] theorem respond_rspOp (op : BitVec 4) (st : Status) (data : Word) (s : State) :
    (respond op st data s).rspOp = op := rfl
@[simp] theorem respond_rspData (op : BitVec 4) (st : Status) (data : Word) (s : State) :
    (respond op st data s).rspData = data := rfl
@[simp] theorem respond_inputs (op : BitVec 4) (st : Status) (data : Word) (s : State) :
    (respond op st data s).inputs = s.inputs := rfl
@[simp] theorem respond_issuer (op : BitVec 4) (st : Status) (data : Word) (s : State) :
    (respond op st data s).issuer = s.issuer := rfl
@[simp] theorem respond_returned (op : BitVec 4) (st : Status) (data : Word) (s : State) :
    (respond op st data s).returned = ⟨s.issuer, st, data⟩ :: s.returned := rfl
@[simp] theorem respond_observed (op : BitVec 4) (st : Status) (data : Word) (s : State) :
    (respond op st data s).observed = s.observed := rfl
@[simp] theorem respond_bus (op : BitVec 4) (st : Status) (data : Word) (s : State) :
    (respond op st data s).bus = s.bus := rfl
@[simp] theorem respond_busLog (op : BitVec 4) (st : Status) (data : Word) (s : State) :
    (respond op st data s).busLog = s.busLog := rfl
@[simp] theorem respond_transport (op : BitVec 4) (st : Status) (data : Word) (s : State) :
    (respond op st data s).transport = s.transport := rfl
@[simp] theorem respond_device (op : BitVec 4) (st : Status) (data : Word) (s : State) :
    (respond op st data s).device = s.device := rfl
@[simp] theorem respond_driver (op : BitVec 4) (st : Status) (data : Word) (s : State) :
    (respond op st data s).driver = s.driver := rfl
@[simp] theorem respond_draws (op : BitVec 4) (st : Status) (data : Word) (s : State) :
    (respond op st data s).draws = s.draws := rfl

/-- The error response is `respond` with data 0 (R101). -/
@[simp] theorem raiseStatus_eq_respond (op : BitVec 4) (st : Status) (s : State) :
    raiseStatus op st s = respond op st 0 s := rfl

/-! ## `resetBlock` -/

@[simp] theorem resetBlock_rspValid (s : State) :
    (resetBlock s).rspValid = false := rfl
@[simp] theorem resetBlock_rspStatus (s : State) :
    (resetBlock s).rspStatus = 0b00#2 := rfl
@[simp] theorem resetBlock_rspOp (s : State) :
    (resetBlock s).rspOp = 0x0#4 := rfl
@[simp] theorem resetBlock_rspData (s : State) :
    (resetBlock s).rspData = 0x00000000#32 := rfl
@[simp] theorem resetBlock_inputs (s : State) :
    (resetBlock s).inputs = s.inputs := rfl
@[simp] theorem resetBlock_issuer (s : State) :
    (resetBlock s).issuer = s.issuer := rfl
@[simp] theorem resetBlock_returned (s : State) :
    (resetBlock s).returned = s.returned := rfl
@[simp] theorem resetBlock_observed (s : State) :
    (resetBlock s).observed = s.observed := rfl
@[simp] theorem resetBlock_bus (s : State) :
    (resetBlock s).bus = s.bus := rfl
@[simp] theorem resetBlock_busLog (s : State) :
    (resetBlock s).busLog = s.busLog := rfl
@[simp] theorem resetBlock_transport (s : State) :
    (resetBlock s).transport = s.transport := rfl
@[simp] theorem resetBlock_device (s : State) :
    (resetBlock s).device = s.device := rfl
@[simp] theorem resetBlock_driver (s : State) :
    (resetBlock s).driver = s.driver := rfl
@[simp] theorem resetBlock_draws (s : State) :
    (resetBlock s).draws = s.draws := rfl

/-! ## `readRsp` -/

@[simp] theorem readRsp_rspValid (r : RspReg) (s : State) :
    (readRsp r s).rspValid = s.rspValid := rfl
@[simp] theorem readRsp_rspStatus (r : RspReg) (s : State) :
    (readRsp r s).rspStatus = s.rspStatus := rfl
@[simp] theorem readRsp_rspOp (r : RspReg) (s : State) :
    (readRsp r s).rspOp = s.rspOp := rfl
@[simp] theorem readRsp_rspData (r : RspReg) (s : State) :
    (readRsp r s).rspData = s.rspData := rfl
@[simp] theorem readRsp_inputs (r : RspReg) (s : State) :
    (readRsp r s).inputs = s.inputs := rfl
@[simp] theorem readRsp_issuer (r : RspReg) (s : State) :
    (readRsp r s).issuer = s.issuer := rfl
@[simp] theorem readRsp_returned (r : RspReg) (s : State) :
    (readRsp r s).returned = s.returned := rfl
@[simp] theorem readRsp_observed (r : RspReg) (s : State) :
    (readRsp r s).observed = (r, rspRegValue r s) :: s.observed := rfl
@[simp] theorem readRsp_bus (r : RspReg) (s : State) :
    (readRsp r s).bus = s.bus := rfl
@[simp] theorem readRsp_busLog (r : RspReg) (s : State) :
    (readRsp r s).busLog = s.busLog := rfl
@[simp] theorem readRsp_transport (r : RspReg) (s : State) :
    (readRsp r s).transport = s.transport := rfl
@[simp] theorem readRsp_device (r : RspReg) (s : State) :
    (readRsp r s).device = s.device := rfl
@[simp] theorem readRsp_driver (r : RspReg) (s : State) :
    (readRsp r s).driver = s.driver := rfl
@[simp] theorem readRsp_draws (r : RspReg) (s : State) :
    (readRsp r s).draws = s.draws := rfl

/-! ## The device updates -/

@[simp] theorem clearDrdy_rspValid (s : State) :
    (clearDrdy s).rspValid = s.rspValid := rfl
@[simp] theorem clearDrdy_rspStatus (s : State) :
    (clearDrdy s).rspStatus = s.rspStatus := rfl
@[simp] theorem clearDrdy_rspOp (s : State) :
    (clearDrdy s).rspOp = s.rspOp := rfl
@[simp] theorem clearDrdy_rspData (s : State) :
    (clearDrdy s).rspData = s.rspData := rfl
@[simp] theorem clearDrdy_inputs (s : State) :
    (clearDrdy s).inputs = s.inputs := rfl
@[simp] theorem clearDrdy_issuer (s : State) :
    (clearDrdy s).issuer = s.issuer := rfl
@[simp] theorem clearDrdy_returned (s : State) :
    (clearDrdy s).returned = s.returned := rfl
@[simp] theorem clearDrdy_observed (s : State) :
    (clearDrdy s).observed = s.observed := rfl
@[simp] theorem clearDrdy_bus (s : State) :
    (clearDrdy s).bus = s.bus := rfl
@[simp] theorem clearDrdy_busLog (s : State) :
    (clearDrdy s).busLog = s.busLog := rfl
@[simp] theorem clearDrdy_transport (s : State) :
    (clearDrdy s).transport = s.transport := rfl
@[simp] theorem clearDrdy_device (s : State) :
    (clearDrdy s).device = { s.device with drdyLow := false } := rfl
@[simp] theorem clearDrdy_driver (s : State) :
    (clearDrdy s).driver = s.driver := rfl
@[simp] theorem clearDrdy_draws (s : State) :
    (clearDrdy s).draws = s.draws := rfl

@[simp] theorem drawDrdy_rspValid (s : State) :
    (drawDrdy s).rspValid = s.rspValid := rfl
@[simp] theorem drawDrdy_rspStatus (s : State) :
    (drawDrdy s).rspStatus = s.rspStatus := rfl
@[simp] theorem drawDrdy_rspOp (s : State) :
    (drawDrdy s).rspOp = s.rspOp := rfl
@[simp] theorem drawDrdy_rspData (s : State) :
    (drawDrdy s).rspData = s.rspData := rfl
@[simp] theorem drawDrdy_inputs (s : State) :
    (drawDrdy s).inputs = s.inputs := rfl
@[simp] theorem drawDrdy_issuer (s : State) :
    (drawDrdy s).issuer = s.issuer := rfl
@[simp] theorem drawDrdy_returned (s : State) :
    (drawDrdy s).returned = s.returned := rfl
@[simp] theorem drawDrdy_observed (s : State) :
    (drawDrdy s).observed = s.observed := rfl
@[simp] theorem drawDrdy_bus (s : State) :
    (drawDrdy s).bus = s.bus := rfl
@[simp] theorem drawDrdy_busLog (s : State) :
    (drawDrdy s).busLog = s.busLog := rfl
@[simp] theorem drawDrdy_transport (s : State) :
    (drawDrdy s).transport = s.transport := rfl
@[simp] theorem drawDrdy_device (s : State) :
    (drawDrdy s).device = { s.device with drdyLow := s.device.drdyLow && Config.freeBit s.draws } := rfl
@[simp] theorem drawDrdy_driver (s : State) :
    (drawDrdy s).driver = s.driver := rfl
@[simp] theorem drawDrdy_draws (s : State) :
    (drawDrdy s).draws = s.draws + 1 := rfl

@[simp] theorem drawFaultStatus_rspValid (s : State) :
    (drawFaultStatus s).rspValid = s.rspValid := rfl
@[simp] theorem drawFaultStatus_rspStatus (s : State) :
    (drawFaultStatus s).rspStatus = s.rspStatus := rfl
@[simp] theorem drawFaultStatus_rspOp (s : State) :
    (drawFaultStatus s).rspOp = s.rspOp := rfl
@[simp] theorem drawFaultStatus_rspData (s : State) :
    (drawFaultStatus s).rspData = s.rspData := rfl
@[simp] theorem drawFaultStatus_inputs (s : State) :
    (drawFaultStatus s).inputs = s.inputs := rfl
@[simp] theorem drawFaultStatus_issuer (s : State) :
    (drawFaultStatus s).issuer = s.issuer := rfl
@[simp] theorem drawFaultStatus_returned (s : State) :
    (drawFaultStatus s).returned = s.returned := rfl
@[simp] theorem drawFaultStatus_observed (s : State) :
    (drawFaultStatus s).observed = s.observed := rfl
@[simp] theorem drawFaultStatus_bus (s : State) :
    (drawFaultStatus s).bus = s.bus := rfl
@[simp] theorem drawFaultStatus_busLog (s : State) :
    (drawFaultStatus s).busLog = s.busLog := rfl
@[simp] theorem drawFaultStatus_transport (s : State) :
    (drawFaultStatus s).transport = s.transport := rfl
@[simp] theorem drawFaultStatus_device (s : State) :
    (drawFaultStatus s).device = { s.device with faultStatus := Config.freeByte s.draws } := rfl
@[simp] theorem drawFaultStatus_driver (s : State) :
    (drawFaultStatus s).driver = s.driver := rfl
@[simp] theorem drawFaultStatus_draws (s : State) :
    (drawFaultStatus s).draws = s.draws + 1 := rfl

@[simp] theorem conversionDone_rspValid (coldJunction thermocouple : Bytes3) (faultStatus : Byte) (s : State) :
    (conversionDone coldJunction thermocouple faultStatus s).rspValid = s.rspValid := rfl
@[simp] theorem conversionDone_rspStatus (coldJunction thermocouple : Bytes3) (faultStatus : Byte) (s : State) :
    (conversionDone coldJunction thermocouple faultStatus s).rspStatus = s.rspStatus := rfl
@[simp] theorem conversionDone_rspOp (coldJunction thermocouple : Bytes3) (faultStatus : Byte) (s : State) :
    (conversionDone coldJunction thermocouple faultStatus s).rspOp = s.rspOp := rfl
@[simp] theorem conversionDone_rspData (coldJunction thermocouple : Bytes3) (faultStatus : Byte) (s : State) :
    (conversionDone coldJunction thermocouple faultStatus s).rspData = s.rspData := rfl
@[simp] theorem conversionDone_inputs (coldJunction thermocouple : Bytes3) (faultStatus : Byte) (s : State) :
    (conversionDone coldJunction thermocouple faultStatus s).inputs = s.inputs := rfl
@[simp] theorem conversionDone_issuer (coldJunction thermocouple : Bytes3) (faultStatus : Byte) (s : State) :
    (conversionDone coldJunction thermocouple faultStatus s).issuer = s.issuer := rfl
@[simp] theorem conversionDone_returned (coldJunction thermocouple : Bytes3) (faultStatus : Byte) (s : State) :
    (conversionDone coldJunction thermocouple faultStatus s).returned = s.returned := rfl
@[simp] theorem conversionDone_observed (coldJunction thermocouple : Bytes3) (faultStatus : Byte) (s : State) :
    (conversionDone coldJunction thermocouple faultStatus s).observed = s.observed := rfl
@[simp] theorem conversionDone_bus (coldJunction thermocouple : Bytes3) (faultStatus : Byte) (s : State) :
    (conversionDone coldJunction thermocouple faultStatus s).bus = s.bus := rfl
@[simp] theorem conversionDone_busLog (coldJunction thermocouple : Bytes3) (faultStatus : Byte) (s : State) :
    (conversionDone coldJunction thermocouple faultStatus s).busLog = s.busLog := rfl
@[simp] theorem conversionDone_transport (coldJunction thermocouple : Bytes3) (faultStatus : Byte) (s : State) :
    (conversionDone coldJunction thermocouple faultStatus s).transport = s.transport := rfl
@[simp] theorem conversionDone_driver (coldJunction thermocouple : Bytes3) (faultStatus : Byte) (s : State) :
    (conversionDone coldJunction thermocouple faultStatus s).driver = s.driver := rfl
@[simp] theorem conversionDone_draws (coldJunction thermocouple : Bytes3) (faultStatus : Byte) (s : State) :
    (conversionDone coldJunction thermocouple faultStatus s).draws = s.draws := rfl

end Sys2Proof.Machine
end

