-- ==== Sys2Proof/Laws/Ops.lean ====
section
/-! SUPPORT. One lemma per shared operation that says what it can do, for proofs to cite instead of unfolding it. -/

namespace Sys2Proof.Machine

/-! ## Outcomes -/

theorem andThen_eq_next {o : Result} {f : State → Result} {t : State} (h : andThen o f = .next t) :
    ∃ s, o = .next s ∧ f s = .next t := by
  cases o with
  | next s => exact ⟨s, rfl, h⟩
  | fault r => cases h
  | refused r => cases h

@[simp] theorem andThen_next (s : State) (f : State → Result) : andThen (.next s) f = f s := rfl

@[simp] theorem performAll_nil (s : State) : performAll [] s = .next s := rfl

@[simp] theorem performAll_cons (x : HostAction) (xs : List HostAction) (s : State) :
    performAll (x :: xs) s = andThen (perform x s) (performAll xs) := rfl

theorem performAll_append (xs ys : List HostAction) (s : State) :
    performAll (xs ++ ys) s = andThen (performAll xs s) (performAll ys) := by
  induction xs generalizing s with
  | nil => rfl
  | cons x xs ih =>
    simp only [List.cons_append, performAll_cons]
    cases perform x s with
    | next t => simpa using ih t
    | fault r => rfl
    | refused r => rfl

/-- A property every action keeps is kept by a run of actions. -/
theorem performAll_induct {P : State → Prop} (hP : ∀ x s t, P s → perform x s = .next t → P t)
    (xs : List HostAction) {s t : State} (hs : P s) (h : performAll xs s = .next t) : P t := by
  induction xs generalizing s with
  | nil => cases h; exact hs
  | cons x xs ih =>
    obtain ⟨u, hu, ht⟩ := andThen_eq_next h
    exact ih (hP x s u hs hu) ht

/-- A property every action keeps, and which does not look at the driver's handle, is kept by a driver call. -/
theorem runCall_induct {P : State → Prop} (hP : ∀ x s t, P s → perform x s = .next t → P t)
    (hD : ∀ s d, P s → P { s with driver := d }) {a : Agent} {c : DriverCall} {s t : State}
    (hs : P s) (h : runCall a c s = .next t) : P t := by
  unfold runCall at h
  split at h
  · cases h
  · obtain ⟨u, hu, ht⟩ := andThen_eq_next h
    cases ht
    exact hD _ _ (performAll_induct hP _ hs hu)

/-- A property every action keeps, and which looks neither at the driver's handle nor at the waiting inputs, is kept
by every step. -/
theorem step_induct {P : State → Prop} (hP : ∀ x s t, P s → perform x s = .next t → P t)
    (hD : ∀ s d, P s → P { s with driver := d }) (hI : ∀ s xs, P s → P { s with inputs := xs })
    {s t : State} (hs : P s) (h : step s = .next t) : P t := by
  unfold step at h
  split at h
  · cases h; exact hs
  · next x rest _ =>
    cases x with
    | action x => exact hP x _ _ (hI s rest hs) h
    | call a c => exact runCall_induct hP hD (hI s rest hs) h

/-! ## Requests -/

/-- An operation ends in `respond` with its own OP and status OK, whatever the state (R102). -/
theorem exec_eq_respond (i : Instr) (s : State) :
    ∃ data, exec i s = .next (respond i.opcode.code .ok data s) ∧
      ∀ s', exec i s' = .next (respond i.opcode.code .ok data s') := by
  cases i <;> exact ⟨_, rfl, fun _ => rfl⟩

/-- The decoder's answer in terms of the three checks of R55. -/
theorem decode_cases (req : Word) :
    (Opcode.ofCode (Fields.ofWord req).op = none ∧ decode req = .rejected .illegalOp) ∨
    (∃ o, Opcode.ofCode (Fields.ofWord req).op = some o ∧
      (((Fields.ofWord req).cnt ≠ o.requiredCnt ∧ decode req = .rejected .length) ∨
       ((Fields.ofWord req).cnt = o.requiredCnt ∧ req &&& o.reservedMask ≠ 0#32 ∧
          decode req = .rejected .reservedField) ∨
       ((Fields.ofWord req).cnt = o.requiredCnt ∧ req &&& o.reservedMask = 0#32 ∧
          decode req = .instr (o.operands (Fields.ofWord req))))) := by
  unfold decode classify
  cases hop : Opcode.ofCode (Fields.ofWord req).op with
  | none => exact .inl ⟨rfl, rfl⟩
  | some o =>
    refine .inr ⟨o, rfl, ?_⟩
    by_cases hc : (Fields.ofWord req).cnt = o.requiredCnt
    · by_cases hr : req &&& o.reservedMask = 0#32
      · exact .inr (.inr ⟨hc, hr, by simp [hc, hr]⟩)
      · exact .inr (.inl ⟨hc, hr, by simp [hc, hr]⟩)
    · exact .inl ⟨hc, by simp [hc]⟩

/-- A word never decodes to a rejection with status OK. -/
theorem decode_ne_rejected_ok (req : Word) : decode req ≠ .rejected .ok := by
  rcases decode_cases req with ⟨-, h⟩ | ⟨o, -, ⟨-, h⟩ | ⟨-, -, h⟩ | ⟨-, -, h⟩⟩ <;> simp [h]

/-- OP of a defined operation is its code, and only it. -/
theorem opcode_ofCode_eq_some {c : BitVec 4} {o : Opcode} : Opcode.ofCode c = some o ↔ c = o.code := by
  constructor
  · intro h
    unfold Opcode.ofCode at h
    split_ifs at h <;> cases h <;> assumption
  · rintro rfl
    cases o <;> rfl

@[simp] theorem opcode_ofCode_code (o : Opcode) : Opcode.ofCode o.code = some o :=
  opcode_ofCode_eq_some.2 rfl

@[simp] theorem operands_opcode (o : Opcode) (f : Fields) : (o.operands f).opcode = o := by
  cases o <;> rfl

/-- Serving a request answers it with a status and data that the word alone decides (R18, R19). -/
theorem serve_eq_respond (req : Word) :
    ∃ st data, (∀ (a : Agent) (s : State),
      serve a req s = .next (respond (Fields.ofWord req).op st data { s with issuer := a })) ∧
      ((st ≠ .ok ∧ data = 0#32 ∧ decode req = .rejected st) ∨
       ∃ i, st = .ok ∧ decode req = .instr i ∧ (Fields.ofWord req).op = i.opcode.code ∧
        ∀ s, exec i s = .next (respond i.opcode.code .ok data s)) := by
  rcases decode_cases req with ⟨-, h⟩ | ⟨o, ho, ⟨-, h⟩ | ⟨-, -, h⟩ | ⟨-, -, h⟩⟩
  · exact ⟨.illegalOp, 0, fun a s => by simp [serve, h], .inl ⟨by simp, rfl, h⟩⟩
  · exact ⟨.length, 0, fun a s => by simp [serve, h], .inl ⟨by simp, rfl, h⟩⟩
  · exact ⟨.reservedField, 0, fun a s => by simp [serve, h], .inl ⟨by simp, rfl, h⟩⟩
  · obtain ⟨data, -, hd⟩ := exec_eq_respond (o.operands (Fields.ofWord req)) State.reset
    rw [operands_opcode] at hd
    refine ⟨.ok, data, fun a s => ?_, .inr ⟨_, rfl, h, ?_, ?_⟩⟩
    · rw [opcode_ofCode_eq_some.1 ho]; simp only [serve, h]; exact hd _
    · rw [operands_opcode]; exact opcode_ofCode_eq_some.1 ho
    · rw [operands_opcode]; exact hd

/-- Serving received bytes serves one request, the decode of bytes the last transaction left. -/
theorem serveReceived_eq_next {a : Agent} {o : Opcode} {s t : State} (h : serveReceived a o s = .next t) :
    ∃ bytes, receivedBytes s.transport = some bytes ∧ serve a (requestFor o bytes) s = .next t := by
  unfold serveReceived at h
  split at h
  · next bytes hb => exact ⟨bytes, hb, h⟩
  · cases h

/-- Using `RSP_DATA` goes on only after an OK response, and then records the read (R21, R101). -/
theorem useRspData_eq_next {s t : State} (h : useRspData s = .next t) :
    s.rspValid = true ∧ s.rspStatus = Status.ok.code ∧ t = readRsp .data s := by
  unfold useRspData at h
  split_ifs at h with hv hs
  cases h
  exact ⟨by simpa using hv, by simpa using hs, rfl⟩

/-- The low byte of a zero-extended byte is the byte, as the host writes it to the device (R116). -/
@[simp] theorem setWidth_zext32 (b : Byte) : (zext32 b).setWidth 8 = b := by simp [zext32]

/-- An agent's own last pair is found under any pairs handed to others since (R109). -/
theorem latestFor_of_newer {a : Agent} {r : Response} {newer older : List Response}
    (hn : ∀ x ∈ newer, x.agent ≠ a) (hr : r.agent = a) : latestFor a (newer ++ r :: older) = some r := by
  rw [latestFor, List.find?_append, List.find?_eq_none.2 (by simpa using hn)]
  simp [hr]

/-- An agent that was handed no pair has none. -/
theorem latestFor_eq_none {a : Agent} {rs : List Response} (h : ∀ r ∈ rs, r.agent ≠ a) : latestFor a rs = none := by
  simpa [latestFor] using h

/-- A line in range that spells an instruction assembles to the instruction's encoding (R66). -/
theorem assemble_eq_encode {l : AsmLine} {i : Instr} (hw : l.wf = true) (hi : l.instr = some i) :
    l.assemble = some (encode i) := by
  cases l <;> simp_all [AsmLine.assemble, AsmLine.instr]

end Sys2Proof.Machine
end

