-- ==== Sys2Proof/Laws/PerInstr.lean ====
section
/-! SUPPORT. The families of statements about every instruction as syntax, one lemma per constructor.
`EncodingRow`: an instruction's word matches the row of its operation in the opcode table. -/

open Sys2Proof Sys2Proof.Machine

namespace Sys2Proof.Laws

/-- Masking a word given by its fields masks each field. -/
theorem fields_and (f g : Fields) : f.toWord &&& g.toWord =
    (⟨f.op &&& g.op, f.cnt &&& g.cnt, f.rsv &&& g.rsv, f.b0 &&& g.b0, f.b1 &&& g.b1, f.b2 &&& g.b2⟩ : Fields).toWord := by
  have h : ∀ (a a' : BitVec 4) (b b' c c' : BitVec 2) (d d' e e' g g' : BitVec 8),
      (a ++ b ++ c ++ d ++ e ++ g) &&& (a' ++ b' ++ c' ++ d' ++ e' ++ g') =
        (a &&& a') ++ (b &&& b') ++ (c &&& c') ++ (d &&& d') ++ (e &&& e') ++ (g &&& g') := by
    intros
    simp only [BitVec.and_append]
  exact h _ _ _ _ _ _ _ _ _ _ _ _

/-- A word given by its fields matches a row when each field does. -/
theorem hits_of_fields (r : Row) (f m : Fields) (hm : r.mask = m.toWord)
    (h : (⟨f.op &&& m.op, f.cnt &&& m.cnt, f.rsv &&& m.rsv, f.b0 &&& m.b0, f.b1 &&& m.b1, f.b2 &&& m.b2⟩ :
      Fields).toWord = r.matchBits) : r.hits f.toWord = true := by
  rw [Row.hits, beq_iff_eq, hm, fields_and, h]

end Sys2Proof.Laws

/-- The word of `i` matches the row of its operation (R55). -/
def Sys2Proof.Laws.EncodingRow.Statement (i : Instr) : Prop :=
  ∃ r ∈ opcodeTable, r.opcode = i.opcode ∧ r.hits (encode i) = true

theorem Sys2Proof.Laws.EncodingRow.buildCr0 (oneShot f50 : Bool) :
    Sys2Proof.Laws.EncodingRow.Statement (.buildCr0 oneShot f50) := by
  refine ⟨⟨.buildCr0, 0xFFFCFFFF, 0x14000000⟩, by simp [opcodeTable], rfl, ?_⟩
  cases oneShot <;> cases f50 <;> decide

theorem Sys2Proof.Laws.EncodingRow.buildCr1 (avgSel : BitVec 8) (tcType : BitVec 4) :
    Sys2Proof.Laws.EncodingRow.Statement (.buildCr1 avgSel tcType) := by
  refine ⟨⟨.buildCr1, 0xFF00F0FF, 0x28000000⟩, by simp [opcodeTable], rfl, ?_⟩
  refine Laws.hits_of_fields _ _ ⟨0xF#4, 3#2, 3#2, 0#8, 0xF0#8, 0xFF#8⟩ rfl ?_
  have h : (0#4 ++ tcType) &&& 0xF0#8 = 0#8 := by revert tcType; decide
  simp only [Opcode.request, h, BitVec.and_zero]
  rfl

theorem Sys2Proof.Laws.EncodingRow.decodeFault (sr : Byte) :
    Sys2Proof.Laws.EncodingRow.Statement (.decodeFault sr) := by
  refine ⟨⟨.decodeFault, 0xFF00FFFF, 0x34000000⟩, by simp [opcodeTable], rfl, ?_⟩
  refine Laws.hits_of_fields _ _ ⟨0xF#4, 3#2, 3#2, 0#8, 0xFF#8, 0xFF#8⟩ rfl ?_
  simp only [Opcode.request, BitVec.and_zero]
  rfl

theorem Sys2Proof.Laws.EncodingRow.decodeCj (offset msb lsb : Byte) :
    Sys2Proof.Laws.EncodingRow.Statement (.decodeCj offset msb lsb) := by
  refine ⟨⟨.decodeCj, 0xFF000000, 0x4C000000⟩, by simp [opcodeTable], rfl, ?_⟩
  refine Laws.hits_of_fields _ _ ⟨0xF#4, 3#2, 3#2, 0#8, 0#8, 0#8⟩ rfl ?_
  simp only [Opcode.request, BitVec.and_zero]
  rfl

theorem Sys2Proof.Laws.EncodingRow.decodeTc (high mid low : Byte) :
    Sys2Proof.Laws.EncodingRow.Statement (.decodeTc high mid low) := by
  refine ⟨⟨.decodeTc, 0xFF000000, 0x5C000000⟩, by simp [opcodeTable], rfl, ?_⟩
  refine Laws.hits_of_fields _ _ ⟨0xF#4, 3#2, 3#2, 0#8, 0#8, 0#8⟩ rfl ?_
  simp only [Opcode.request, BitVec.and_zero]
  rfl
end

