-- ==== Sys2Proof/Laws/Transport.lean ====
section
/-! SUPPORT. What the bus and the device operations can do. -/

namespace Sys2Proof.Machine

theorem SameBlock.rfl' (s : State) : SameBlock s s := ⟨rfl, rfl, rfl, rfl, rfl, rfl⟩

theorem SameBlock.trans {s t u : State} (h : SameBlock s t) (k : SameBlock t u) : SameBlock s u :=
  ⟨k.rspValid.trans h.rspValid, k.rspStatus.trans h.rspStatus, k.rspOp.trans h.rspOp,
   k.rspData.trans h.rspData, k.issuer.trans h.issuer, k.returned.trans h.returned⟩

theorem readEffect_sameBlock (r : DevReg) (w : Bool) (s : State) : SameBlock s (readEffect r w s) := by
  cases r <;> cases w <;> exact ⟨rfl, rfl, rfl, rfl, rfl, rfl⟩

theorem writeEffect_sameBlock (r : DevReg) (v : Byte) (s : State) : SameBlock s (writeEffect r v s) := by
  unfold writeEffect
  repeat' split
  all_goals exact ⟨rfl, rfl, rfl, rfl, rfl, rfl⟩

@[simp] theorem writeEffect_transport (r : DevReg) (v : Byte) (s : State) :
    (writeEffect r v s).transport = s.transport := by
  unfold writeEffect
  repeat' split
  all_goals rfl

/-- A byte of R68 only lands in CR0; the device's other registers and DRDY stay. -/
theorem writeEffect_cr0 {v : Byte} (h : isCr0Byte v = true) (s : State) :
    writeEffect .cr0 v s = { s with device := writeDevice .cr0 v s.device } := by
  simp [writeEffect, h]

/-- Whatever the byte, CR0 then holds it and CR1 is untouched. -/
theorem writeEffect_cr0_registers (v : Byte) (s : State) :
    (writeEffect .cr0 v s).device.cr0 = v ∧ (writeEffect .cr0 v s).device.cr1 = s.device.cr1 := by
  simp only [writeEffect]
  split <;> exact ⟨rfl, rfl⟩

theorem deviceBytes_sameBlock (r : DevReg) (s : State) : SameBlock s (deviceBytes r s).2 := by
  cases r <;> simp only [deviceBytes] <;> try split
  all_goals exact ⟨rfl, rfl, rfl, rfl, rfl, rfl⟩

theorem abortEffect_sameBlock (p : BusPhase) (s : State) : SameBlock s (abortEffect p s) := by
  unfold abortEffect
  split
  · exact readEffect_sameBlock _ _ _
  all_goals exact ⟨rfl, rfl, rfl, rfl, rfl, rfl⟩

/-- A register finds no more bytes than three. -/
theorem deviceBytes_length_le (r : DevReg) (s : State) : (deviceBytes r s).1.length ≤ 3 := by
  cases r <;> simp only [deviceBytes] <;> try split
  all_goals simp [Bytes3.toList, freeBytes]

@[simp] theorem readEffect_transport (r : DevReg) (w : Bool) (s : State) :
    (readEffect r w s).transport = s.transport := by
  cases r <;> cases w <;> rfl

@[simp] theorem deviceBytes_transport (r : DevReg) (s : State) :
    (deviceBytes r s).2.transport = s.transport := by
  cases r <;> simp only [deviceBytes] <;> try split
  all_goals rfl

/-- The address byte selects a register that R36 lets be read or written, or stops. -/
theorem addressPhase_eq_next {a : Agent} {b : Byte} {s t : State} (h : addressPhase a b s = .next t) :
    ∃ r, DevReg.ofAddr (b.setWidth 7) = some r ∧
      ((b.getLsbD 7 = true ∧ r.writable = true ∧ t = { s with bus := .writing a r }) ∨
       (b.getLsbD 7 = false ∧ r.readLength.isSome = true ∧ t = { s with bus := .reading a r })) := by
  unfold addressPhase at h
  split at h
  · cases h
  · next r hr =>
    refine ⟨r, hr, ?_⟩
    split_ifs at h with h7 hw
    · cases h; exact .inl ⟨h7, hw, rfl⟩
    · split at h
      · next n hn => cases h; exact .inr ⟨by simpa using h7, by simp [hn], rfl⟩
      · cases h

/-- A read that goes on has the register's length, ends its data phase with at most that many bytes, and does to the
rest of the state what reading the register does. -/
theorem readPhase_eq_next {a : Agent} {r : DevReg} {n : Nat} {d : Delivery} {s t : State}
    (h : readPhase a r n d s = .next t) :
    r.readLength = some n ∧ ∃ bytes u w, bytes.length ≤ 3 ∧
      (u = s ∨ u = (deviceBytes r s).2) ∧
      t = { readEffect r w u with bus := .done a (.received bytes) } := by
  unfold readPhase at h
  split_ifs at h with hr
  have hr : r.readLength = some n := by simpa using hr
  refine ⟨hr, ?_⟩
  cases d with
  | intact got =>
    simp only at h
    split_ifs at h with hg
    cases h
    refine ⟨_, _, _, ?_, .inr rfl, rfl⟩
    exact (List.length_take_le' _ _).trans (deviceBytes_length_le r s)
  | garbled bytes =>
    simp only at h
    split_ifs at h with hg
    cases h
    refine ⟨bytes, s, false, ?_, .inl rfl, rfl⟩
    cases r <;> simp [DevReg.readLength] at hr <;> omega

/-- What the frame automaton can do, phase by phase (R31 to R33). -/
theorem frameStep_eq_next {a : Agent} {b : BusAction} {s t : State} (h : frameStep a b s = .next t) :
    (s.bus = .idle ∧ b = .csLow ∧ t = { s with bus := .selected a }) ∨
    (∃ o v, s.bus = .selected o ∧ b = .write v ∧ addressPhase a v s = .next t) ∨
    (∃ o r v, s.bus = .writing o r ∧ b = .write v ∧
      t = { writeEffect r v s with bus := .done a .written }) ∨
    (∃ o r n d, s.bus = .reading o r ∧ b = .read n d ∧ readPhase a r n d s = .next t) ∨
    (∃ o res, s.bus = .done o res ∧ b = .csHigh ∧ t = { s with bus := .idle, transport := res }) ∨
    (b = .csHigh ∧ (∀ o res, s.bus ≠ .done o res) ∧ s.bus ≠ .idle ∧
      t = { abortEffect s.bus s with bus := .idle, transport := .unavailable }) := by
  unfold frameStep at h
  cases hb : s.bus <;> cases b <;> simp only [hb] at h <;> first
    | (cases h; done)
    | (cases h; simp)
    | (simp [h])

/-- A bus action that goes on is the owner's, or starts a frame on an idle bus, and is logged. -/
theorem busStep_eq_next {a : Agent} {b : BusAction} {s t : State} (h : busStep a b s = .next t) :
    (busOwner s.bus = none ∨ busOwner s.bus = some a) ∧
      frameStep a b { s with busLog := b :: s.busLog } = .next t := by
  unfold busStep at h
  split at h
  · next ho => exact ⟨.inl ho, h⟩
  · next o ho =>
    split_ifs at h with hoa
    exact ⟨.inr (hoa ▸ ho), h⟩

theorem frameStep_sameBlock {a : Agent} {b : BusAction} {s t : State} (h : frameStep a b s = .next t) :
    SameBlock s t := by
  rcases frameStep_eq_next h with ⟨-, -, rfl⟩ | ⟨o, v, -, -, h⟩ | ⟨o, r, v, -, -, rfl⟩ | ⟨o, r, n, d, -, -, h⟩ |
    ⟨o, res, -, -, rfl⟩ | ⟨-, -, -, rfl⟩
  · exact ⟨rfl, rfl, rfl, rfl, rfl, rfl⟩
  · obtain ⟨r, -, ⟨-, -, rfl⟩ | ⟨-, -, rfl⟩⟩ := addressPhase_eq_next h <;> exact ⟨rfl, rfl, rfl, rfl, rfl, rfl⟩
  · have := writeEffect_sameBlock r v s
    exact ⟨this.1, this.2, this.3, this.4, this.5, this.6⟩
  · obtain ⟨-, bytes, u, w, -, hu, rfl⟩ := readPhase_eq_next h
    have hsu : SameBlock s u := by
      rcases hu with rfl | rfl
      · exact .rfl' _
      · exact deviceBytes_sameBlock r s
    have := hsu.trans (readEffect_sameBlock r w u)
    exact ⟨this.1, this.2, this.3, this.4, this.5, this.6⟩
  · exact ⟨rfl, rfl, rfl, rfl, rfl, rfl⟩
  · have := abortEffect_sameBlock s.bus s
    exact ⟨this.1, this.2, this.3, this.4, this.5, this.6⟩

/-- No bus action touches the block (R28). -/
theorem busStep_sameBlock {a : Agent} {b : BusAction} {s t : State} (h : busStep a b s = .next t) :
    SameBlock s t := by
  have := frameStep_sameBlock (busStep_eq_next h).2
  exact ⟨this.1, this.2, this.3, this.4, this.5, this.6⟩

/-- Writing a result goes on only with an OK response of the agent's own, and is then a bus write of its low byte. -/
theorem busWriteResult_eq_next {a : Agent} {s t : State} (h : busWriteResult a s = .next t) :
    ∃ r, latestFor a s.returned = some r ∧ r.status = .ok ∧ busStep a (.write (r.data.setWidth 8)) s = .next t := by
  unfold busWriteResult at h
  split at h
  · cases h
  · next r hr =>
    split_ifs at h with hok
    exact ⟨r, hr, hok, h⟩

end Sys2Proof.Machine
end

