-- ==== Sys2Proof/Tests/Slice0.lean ====
section
/-! SUPPORT. The model's own tests. Expected values come from spec/95_test_vectors.md (S<n>: a worked example of the
source; T: a derived vector) or from the rule named. After them, for every obligation with hypotheses, a witness that
meets them. -/

namespace Sys2Proof.Tests

open Sys2Proof Sys2Proof.Machine

/-! ## Helpers -/

/-- The reset state with one action waiting. -/
def waiting (x : HostAction) : State := { State.reset with inputs := [.action x] }

/-- What one step leaves in the response registers for a request word. -/
def answered (req : Word) : Option (Bool × BitVec 2 × BitVec 4 × Word) :=
  match step (waiting (.request 0 req)) with
  | .next t => some (t.rspValid, t.rspStatus, t.rspOp, t.rspData)
  | .fault _ => none
  | .refused _ => none

/-- A device with known contents: 25 degrees, no fault, DRDY low. -/
def demoDevice : Device := ⟨0x80, 0x23, ⟨0x00, 0x19, 0x00⟩, ⟨0x01, 0x90, 0x00⟩, 0x00, true, 0, true⟩

/-- The reset state with that device, a constructed driver, and one input waiting. -/
def demo (x : HostInput) : State :=
  { State.reset with device := demoDevice, driver := some ⟨0x3, 2, .oneShotPending⟩, inputs := [x] }

/-- A field of the state a step leads to. -/
def after {α : Type} (r : Result) (f : State → α) : Option α :=
  match r with
  | .next t => some (f t)
  | .fault _ => none
  | .refused _ => none

/-! ## Well-formedness: one ill-formed line for each check -/

theorem test_wf_bit_refused : AsmLine.wf (.buildCr0 2 0) = false ∧ AsmLine.wf (.buildCr0 0 2) = false := by decide
theorem test_wf_avg_refused : AsmLine.wf (.buildCr1 256 (.letter .K)) = false := by decide
theorem test_wf_type_refused : AsmLine.wf (.buildCr1 4 (.number 16)) = false := by decide
theorem test_wf_fault_byte_refused : AsmLine.wf (.decodeFault 256) = false := by decide
theorem test_wf_cj_bytes_refused : AsmLine.wf (.decodeCj 256 0 0) = false ∧ AsmLine.wf (.decodeCj 0 256 0) = false ∧
    AsmLine.wf (.decodeCj 0 0 256) = false := by decide
theorem test_wf_tc_bytes_refused : AsmLine.wf (.decodeTc 256 0 0) = false ∧ AsmLine.wf (.decodeTc 0 256 0) = false ∧
    AsmLine.wf (.decodeTc 0 0 256) = false := by decide
theorem test_wf_word_refused : AsmLine.wf (.word (2 ^ 32)) = false := by decide
theorem test_wf_accepts : AsmLine.wf (.buildCr1 255 (.number 15)) = true ∧ AsmLine.wf (.buildCr0 1 1) = true := by decide

/-! ## Decoding: words written out bit by bit from R49 to R53, and the refused words of spec/95 -/

theorem test_decode_buildCr0 : decode 0b00010100000000110000000000000000#32 = .instr (.buildCr0 true true) := by decide
theorem test_decode_buildCr0_operands :
    decode 0b00010100000000010000000000000000#32 = .instr (.buildCr0 false true) := by decide
theorem test_decode_buildCr1 : decode 0b00101000000001000000001100000000#32 = .instr (.buildCr1 4 3) := by decide
theorem test_decode_decodeFault : decode 0b00110100100000010000000000000000#32 = .instr (.decodeFault 0x81) := by decide
theorem test_decode_decodeCj :
    decode 0b01001100010000001110011100000001#32 = .instr (.decodeCj 0x40 0xE7 0x01) := by decide
theorem test_decode_decodeTc :
    decode 0b01011100111111100111000000011111#32 = .instr (.decodeTc 0xFE 0x70 0x1F) := by decide
/-- T: ILLEGAL_OP is reported before any other check. -/
theorem test_decode_illegal : decode 0x00000000 = .rejected .illegalOp ∧ decode 0xF4FFFFFF = .rejected .illegalOp ∧
    decode 0x0C001900 = .rejected .illegalOp := by decide
/-- T: too few and too many operands; LENGTH before the reserved bits. -/
theorem test_decode_length : decode 0x58019000 = .rejected .length ∧ decode 0x40001900 = .rejected .length ∧
    decode 0x18030000 = .rejected .length := by decide
/-- T: each kind of reserved bit. -/
theorem test_decode_reserved : decode 0x14040000 = .rejected .reservedField ∧
    decode 0x28041300 = .rejected .reservedField ∧ decode 0x34010100 = .rejected .reservedField ∧
    decode 0x4F001900 = .rejected .reservedField ∧ decode 0x5E019000 = .rejected .reservedField := by decide
theorem test_table_word : decodeTableWord 32 0x28040300 = some (.buildCr1 4 3) ∧ decodeTableWord 32 0 = none := by decide
/-- R66: `BUILD_CR1 avg=4, type=K` is REQ 0x28040300 (R71). -/
theorem test_assemble : (AsmLine.buildCr1 4 (.letter .K)).assemble = some 0x28040300 := by decide
/-- P3: the short read's word. -/
theorem test_request_for_short_read : requestFor .decodeTc [0xFE, 0x70] = 0x58FE7000 := by decide

/-! ## One step per operation -/

/-- S2, S3. -/
theorem test_buildCr0_s2_s3 : answered 0x14030000 = some (true, 0b00, 0x1, 0x00000041) ∧
    answered 0x14010000 = some (true, 0b00, 0x1, 0x00000081) := by decide
/-- S13: 3 rounds down to the level of 2. -/
theorem test_buildCr1_s13 : answered 0x28030300 = some (true, 0b00, 0x2, 0x00000013) := by decide
/-- T: the largest count and type. -/
theorem test_buildCr1_largest : answered 0x28FF0F00 = some (true, 0b00, 0x2, 0x0000007F) := by decide
/-- T: 0x5A passes through. -/
theorem test_decodeFault_t : answered 0x345A0000 = some (true, 0b00, 0x3, 0x0000005A) := by decide
/-- T: the set of 0x5A. -/
theorem test_decodeFault_set : faultSet 0x5A =
    [.overUnderVoltage, .thermocoupleHigh, .coldJunctionLow, .thermocoupleOutOfRange] := by decide
/-- S6. -/
theorem test_decodeCj_s6 : answered 0x4C00E700 = some (true, 0b00, 0x4, 0xFFFFF9C0) := by decide
/-- T: sign bit set, offset 0xFF, result positive. -/
theorem test_decodeCj_positive : answered 0x4CFFFFFC = some (true, 0b00, 0x4, 0x000000FE) := by decide
/-- S7. -/
theorem test_decodeTc_s7 : answered 0x5C019000 = some (true, 0b00, 0x5, 0x00000C80) := by decide
/-- T: the smallest result. -/
theorem test_decodeTc_smallest : answered 0x5C800000 = some (true, 0b00, 0x5, 0xFFFC0000) := by decide
/-- T: an error response. -/
theorem test_error_response : answered 0x58019000 = some (true, 0b10, 0x5, 0x00000000) := by decide
/-- S5: 25.0 degrees. -/
theorem test_celsius_s5 : cjCelsius 0x00000640#32 = 25 := by
  have h : (0x00000640#32).toInt = 1600 := by decide
  rw [cjCelsius, h, Config.lsbCj]; norm_num
/-- R22: the reset vector of spec/95. -/
theorem test_reset_of_a_result : after (step { waiting .reset with rspValid := true, rspStatus := 0b10, rspOp := 0x5 })
    (fun t => (t.rspValid, t.rspStatus, t.rspOp, t.rspData)) = some (false, 0b00, 0x0, 0) := by decide

/-! ## Host context: one step each -/

/-- R59 with R116, P1: a K-type probe with four samples: CR1 is 0x23, written with bus bytes 0x81, 0x23. -/
theorem test_construct_p1 : after (step { waiting .reset with inputs := [.call 0 (.construct 4 0x3)] })
    (fun t => (t.device.cr1, t.busLog)) =
    some (0x23, [.csHigh, .write 0x23, .write 0x81, .csLow]) := by decide
/-- P2: the cold junction at 25.0 degrees. -/
theorem test_read_cold_junction_p2 : after (step (demo (.call 0 (.readColdJunction (.intact 3)))))
    (fun t => (t.rspStatus, t.rspData)) = some (0b00, 0x00000640) := by decide
/-- P4: one discard read before CR0 is written, 60 Hz. -/
theorem test_setup_drdy_p4 : after (step (demo (.call 0 (.setupDrdy false (.intact 3))))) (fun t => t.busLog) =
    some [.csHigh, .write 0x80, .write 0x80, .csLow, .csHigh, .read 3 (.intact 3), .write 0x0C, .csLow] := by decide
/-- C2: a count outside the five is refused at construction. -/
theorem test_construct_refused : runCall 0 (.construct 3 0x3) State.reset = .refused .invalidConfiguration ∧
    runCall 0 (.construct 4 0x8) State.reset = .refused .invalidConfiguration := ⟨rfl, rfl⟩

/-- A CR0 byte outside R68 lands, and the temperature bytes are no longer to be relied on (N2, U14). -/
theorem test_other_cr0_byte : (writeEffect .cr0 0x82 State.reset).device.cr0 = 0x82 ∧
    (writeEffect .cr0 0x82 State.reset).device.settled = false := by decide
/-- R125: the two values the set-up core returns. -/
theorem test_setup_core : (setupDrdyCore 0 true (.garbled [1, 2, 3]) State.reset) = some ([1, 2, 3], 0x81) := rfl

/-! ## Parameters (R6) -/

theorem test_parameters : Config.wOp + Config.wCnt + 2 + 3 * 8 = Config.wReq ∧ 2 ^ Config.wCj = 0x4000 ∧
    2 ^ Config.wTc = 0x80000 ∧ allFaultKinds.length = Config.nFault := by decide

/-! ## Witnesses: states and operands that meet the hypotheses of the obligations -/

/-- Every statement about a waiting request has such a state. -/
theorem witness_waiting_request (a : Agent) (req : Word) :
    ({ State.reset with inputs := [.action (.request a req)] } : State).inputs = .action (.request a req) :: [] := rfl
theorem witness_ResetInput : (waiting .reset).inputs = .action .reset :: [] := rfl
theorem witness_IdleStep : State.reset.inputs = [] := rfl
theorem witness_HostReads_read (r : RspReg) : (waiting (.readRsp r)).inputs = .action (.readRsp r) :: [] := rfl
/-- The second clause of `HostReadsAndNeverWritesResponseRegisters`: a device conversion. -/
theorem witness_HostReads_other : ∃ x t, (waiting x).inputs = .action x :: [] ∧ (∀ a req, x ≠ .request a req) ∧
    (∀ a o, x ≠ .requestReceived a o) ∧ x ≠ .reset ∧ step (waiting x) = .next t :=
  ⟨.conversionDone ⟨0, 0, 0⟩ ⟨0, 0, 0⟩ 0, _, rfl, fun _ _ h => (by cases h), fun _ _ h => (by cases h),
    fun h => (by cases h), rfl⟩
/-- The three clauses of `RspDataIsAResultOnlyAfterAnOkResponse`. -/
theorem witness_RspData_none : (waiting .useRspData).inputs = .action .useRspData :: [] ∧
    (waiting .useRspData).rspValid = false := ⟨rfl, rfl⟩
theorem witness_RspData_error : ∃ s : State, s.inputs = .action .useRspData :: [] ∧ s.rspValid = true ∧
    s.rspStatus ≠ 0b00#2 := ⟨{ waiting .useRspData with rspValid := true, rspStatus := 0b01 }, rfl, rfl, by decide⟩
theorem witness_RspData_ok : ∃ s : State, s.inputs = .action .useRspData :: [] ∧ s.rspValid = true ∧
    s.rspStatus = 0b00#2 := ⟨{ waiting .useRspData with rspValid := true }, rfl, rfl, rfl⟩
theorem witness_ResponsesConsistent : ResponsesConsistent (waiting (.request 0 0x14030000)) ∧
    ∃ t, step (waiting (.request 0 0x14030000)) = .next t :=
  ⟨⟨fun _ => ⟨rfl, rfl, rfl⟩, fun h => (by cases h), fun h => (by cases h), fun r h => (by cases h)⟩, _, rfl⟩
theorem witness_EncodeOfDecode : decode 0x14030000 = .instr (.buildCr0 true true) := by decide
/-- The boundary OPs of `ReservedOpAnswersIllegalOp`. -/
theorem witness_ReservedOp : ∀ req ∈ [0x0FFFFFFF#32, 0x60000000#32, 0xF0000000#32],
    (waiting (.request 0 req)).inputs = .action (.request 0 req) :: [] ∧
    req.extractLsb' 28 4 ∉ [0x1#4, 0x2#4, 0x3#4, 0x4#4, 0x5#4] := by
  simp [waiting]
/-- A wrong count for each OP of `WrongCountAnswersLength`. -/
theorem witness_WrongCount : ∀ p ∈ [(0x18000000#32, 0x1#4, 1#2), (0x2C000000#32, 0x2#4, 2#2), (0x30000000#32, 0x3#4, 1#2),
    (0x40000000#32, 0x4#4, 3#2), (0x58000000#32, 0x5#4, 3#2)],
    (waiting (.request 0 p.1)).inputs = .action (.request 0 p.1) :: [] ∧
    p.2 ∈ [(0x1#4, 1#2), (0x2#4, 2#2), (0x3#4, 1#2), (0x4#4, 3#2), (0x5#4, 3#2)] ∧
    p.1.extractLsb' 28 4 = p.2.1 ∧ p.1.extractLsb' 26 2 ≠ p.2.2 := by
  simp [waiting]
/-- A reserved bit for each OP of `ReservedBitAnswersReservedField`. -/
theorem witness_ReservedBit : ∀ p ∈ [(0x14040000#32, 0x1#4, 1#2, 0x03FCFFFF#32), (0x28001000#32, 0x2#4, 2#2, 0x0300F0FF#32),
    (0x34000100#32, 0x3#4, 1#2, 0x0300FFFF#32), (0x4D000000#32, 0x4#4, 3#2, 0x03000000#32),
    (0x5E000000#32, 0x5#4, 3#2, 0x03000000#32)],
    (waiting (.request 0 p.1)).inputs = .action (.request 0 p.1) :: [] ∧
    p.2 ∈ [(0x1#4, 1#2, 0x03FCFFFF#32), (0x2#4, 2#2, 0x0300F0FF#32),
      (0x3#4, 1#2, 0x0300FFFF#32), (0x4#4, 3#2, 0x03000000#32), (0x5#4, 3#2, 0x03000000#32)] ∧
    p.1.extractLsb' 28 4 = p.2.1 ∧ p.1.extractLsb' 26 2 = p.2.2.1 ∧ p.1 &&& p.2.2.2 ≠ 0#32 := by
  simp [waiting]
/-- A right word for each OP: `WellFormedRequestAnswersOk` and the third clause of each operation's result; the two
witnesses before give words for its first and second clause. -/
theorem witness_WellFormedRequest : ∀ p ∈ [(0x14030000#32, 0x1#4, 1#2, 0x03FCFFFF#32), (0x28FF0F00#32, 0x2#4, 2#2, 0x0300F0FF#32),
    (0x34FF0000#32, 0x3#4, 1#2, 0x0300FFFF#32), (0x4CFFFFFF#32, 0x4#4, 3#2, 0x03000000#32),
    (0x5CFFFFFF#32, 0x5#4, 3#2, 0x03000000#32)],
    (waiting (.request 0 p.1)).inputs = .action (.request 0 p.1) :: [] ∧
    p.2 ∈ [(0x1#4, 1#2, 0x03FCFFFF#32), (0x2#4, 2#2, 0x0300F0FF#32),
      (0x3#4, 1#2, 0x0300FFFF#32), (0x4#4, 3#2, 0x03000000#32), (0x5#4, 3#2, 0x03000000#32)] ∧
    p.1.extractLsb' 28 4 = p.2.1 ∧ p.1.extractLsb' 26 2 = p.2.2.1 ∧ p.1 &&& p.2.2.2 = 0#32 := by
  simp [waiting]
theorem witness_StepRunsTheDecodedInstruction :
    (waiting (.request 0 0x5C019000)).inputs = .action (.request 0 0x5C019000) :: [] ∧
    decode 0x5C019000 = .instr (.decodeTc 0x01 0x90 0x00) := ⟨rfl, by decide⟩
/-- Each clause of `AssembledLinesDecode` at a bound of its range, and just past it. -/
theorem witness_AssembledLines : (1 : Nat) < 2 ∧ (255 : Nat) < 256 ∧ (15 : Nat) < 16 ∧ (2 ^ 32 - 1 : Nat) < 2 ^ 32 ∧
    (ThermocoupleType.T, 7) ∈ [(ThermocoupleType.B, 0), (.E, 1), (.J, 2), (.K, 3), (.N, 4), (.R, 5), (.S, 6), (.T, 7)] ∧
    2 ≤ 2 ∧ 16 ≤ 16 ∧ 256 ≤ 256 ∧ 2 ^ 32 ≤ 2 ^ 32 := by decide
theorem witness_LevelIsFloorOfLog2 : (0 : Nat) ≤ 1 ∧ (2 : Nat) ≤ 2 := by decide
/-- The ends of a range of `CountsRoundDownToAPowerOfTwo`. -/
theorem witness_CountsRoundDown : (0x80#8).toNat = 2 ^ 7 ∧ 2 ^ 7 ≤ (0xFF#8).toNat ∧ (0xFF#8).toNat < 2 ^ (7 + 1) ∧
    2 ^ 7 ≤ (0x80#8).toNat := by decide
theorem witness_Cr1Levels : 32 ≤ (32#8).toNat ∧ 32 ≤ (255#8).toNat := by decide
theorem witness_FaultSet : ∃ t, exec (.decodeFault 0) State.reset = .next t := ⟨_, rfl⟩
/-- Both signs of `ColdJunctionRange`, and the hypothesis of the closed form. -/
theorem witness_ColdJunction : (∃ t, exec (.decodeCj 0xFF 0x7F 0xFF) State.reset = .next t) ∧
    (0x7F#8).getLsbD 7 = false ∧ (∃ t, exec (.decodeCj 0 0x80 0) State.reset = .next t) ∧ (0x80#8).getLsbD 7 = true :=
  ⟨⟨_, rfl⟩, by decide, ⟨_, rfl⟩, by decide⟩
theorem witness_ColdJunctionCorner : (0x00#8).extractLsb' 2 6 = (0x03#8).extractLsb' 2 6 := by decide
theorem witness_Thermocouple : ∃ t, exec (.decodeTc 0x80 0 0) State.reset = .next t := ⟨_, rfl⟩
theorem witness_ThermocoupleCorner : (0xE0#8).extractLsb' 5 3 = (0xFF#8).extractLsb' 5 3 := by decide
theorem witness_OperationFrame : ∃ t, exec (.buildCr1 4 3) State.reset = .next t := ⟨_, rfl⟩
theorem witness_Cr0Bytes : resultData (.buildCr0 true false) State.reset = some 0x40#32 := by decide
/-- Two states with the same waiting word and other registers. -/
theorem witness_AnswerDependsOnTheRequestAlone : ∃ s s' t t' : State,
    s.inputs = .action (.request 0 0x34010000) :: [] ∧ s'.inputs = .action (.request 7 0x34010000) :: [] ∧
    step s = .next t ∧ step s' = .next t' ∧ s'.rspData ≠ s.rspData :=
  ⟨waiting (.request 0 0x34010000), { waiting (.request 7 0x34010000) with rspValid := true, rspData := 5 }, _, _,
    rfl, rfl, rfl, rfl, by decide⟩
theorem witness_RequestSequence : ({ State.reset with
    inputs := [.action (.request 0 0x14030000), .action (.request 1 0), .action .reset] } : State).inputs =
    [(0, 0x14030000#32), (1, 0#32)].map (fun p => HostInput.action (.request p.1 p.2)) ++ [.action .reset] := rfl
theorem witness_OwnResponse : ∃ t, (waiting (.request 1 0)).inputs = .action (.request 1 0) :: [] ∧ (0 : Agent) ≠ 1 ∧
    step (waiting (.request 1 0)) = .next t := ⟨_, rfl, by decide, rfl⟩
/-- Both grounds of an overlap: another agent, and chip-select going low again. -/
theorem witness_Overlap_other : ∃ s : State, s.inputs = .action (.bus 1 .csHigh) :: [] ∧ busOwner s.bus = some 0 ∧
    (0 : Agent) ≠ 1 := ⟨{ waiting (.bus 1 .csHigh) with bus := .done 0 .written }, rfl, rfl, by decide⟩
theorem witness_Overlap_again : ∃ s : State, s.inputs = .action (.bus 0 .csLow) :: [] ∧ busOwner s.bus = some 0 :=
  ⟨{ waiting (.bus 0 .csLow) with bus := .selected 0 }, rfl, rfl⟩
/-- `DevReadReturnsTheRegisterBytes`, its settled clauses too; its bus alone for `DevWriteWritesTheRegister` and `DrdyAfterADeviceRead`. -/
theorem witness_DevRead : (demo (.action .reset)).bus = .idle ∧ (demo (.action .reset)).device.settled = true := by decide
/-- The three clauses of `UnlistedDeviceAccessIsRefused`. -/
theorem witness_UnlistedAddress : ∀ b ∈ [0x00#8, 0x0A#8, 0x89#8, 0xFF#8],
    ({ waiting (.bus 0 (.write b)) with bus := .selected 0 } : State).inputs = .action (.bus 0 (.write b)) :: [] ∧
    ({ waiting (.bus 0 (.write b)) with bus := .selected 0 } : State).bus = .selected 0 ∧
    b ∉ [0x09#8, 0x0C#8, 0x0F#8, 0x80#8, 0x81#8] := by simp [waiting]
theorem witness_UnlistedLength : ∃ s : State, s.inputs = .action (.bus 0 (.read 1 (.intact 1))) :: [] ∧
    s.bus = .reading 0 .thermocouple ∧
    (DevReg.thermocouple, 1) ∉ [(DevReg.coldJunction, 3), (.thermocouple, 3), (.faultStatus, 1)] :=
  ⟨{ waiting (.bus 0 (.read 1 (.intact 1))) with bus := .reading 0 .thermocouple }, rfl, rfl, by decide⟩
theorem witness_SecondDataPhase : ∃ s : State, s.inputs = .action (.bus 0 (.write 0x23)) :: [] ∧ s.bus = .done 0 .written ∧
    ((∃ v, (BusAction.write 0x23) = .write v) ∨ ∃ n d, (BusAction.write 0x23) = .read n d) :=
  ⟨{ waiting (.bus 0 (.write 0x23)) with bus := .done 0 .written }, rfl, rfl, .inl ⟨_, rfl⟩⟩
theorem witness_BusWellFramed : BusWellFramed (waiting (.bus 0 .csLow)) ∧ ∃ t, step (waiting (.bus 0 .csLow)) = .next t :=
  ⟨⟨rfl, fun _ h => (by cases h)⟩, _, rfl⟩
/-- The three cut phases. -/
theorem witness_CutFrame : ∀ p ∈ [BusPhase.selected 0, .reading 0 .faultStatus, .writing 0 .cr0],
    ({ waiting (.bus 0 .csHigh) with bus := p } : State).inputs = .action (.bus 0 .csHigh) :: [] ∧
    ({ waiting (.bus 0 .csHigh) with bus := p } : State).bus = p := fun _ _ => ⟨rfl, rfl⟩
/-- `DriverCallsWriteOnlyBlockResults` and `DrdySetupDiscardsThenEnablesContinuous`. -/
theorem witness_DriverCall : ∃ s t, s.inputs = .call 0 (.setupDrdy true (.intact 3)) :: [] ∧ s.bus = .idle ∧
    s.driver = some ⟨0x3, 2, .oneShotPending⟩ ∧ step s = .next t :=
  ⟨demo (.call 0 (.setupDrdy true (.intact 3))), _, rfl, rfl, rfl, rfl⟩
/-- The clauses of `ConstructionAndOneShotTransitions`, at the largest count and code and just past them. -/
theorem witness_Construction : ∃ s : State, s.inputs = .call 0 (.construct 16 7) :: [] ∧ s.bus = .idle ∧
    (16#8) ∈ [1#8, 2#8, 4#8, 8#8, 16#8] ∧ (7#4).toNat < 8 :=
  ⟨demo (.call 0 (.construct 16 7)), rfl, rfl, by decide, by decide⟩
theorem witness_ConstructionInvalid : (demo (.call 0 (.construct 3 7))).inputs = .call 0 (.construct 3 7) :: [] ∧
    (3#8) ∉ [1#8, 2#8, 4#8, 8#8, 16#8] ∧ (demo (.call 0 (.construct 16 8))).inputs = .call 0 (.construct 16 8) :: [] ∧
    8 ≤ (8#4).toNat := ⟨rfl, by decide, rfl, by decide⟩
theorem witness_OneShot : ∃ s : State, s.inputs = .call 0 (.requestOneShot false) :: [] ∧ s.bus = .idle ∧
    s.driver = some ⟨0x3, 2, .oneShotPending⟩ := ⟨demo (.call 0 (.requestOneShot false)), rfl, rfl, rfl⟩
/-- A short and a whole read of `TemperatureReadsDecodeWithoutChangingMode`. -/
theorem witness_TemperatureRead : ∀ got ∈ [0, 2, 3],
    (demo (.call 0 (.readThermocouple (.intact got)))).inputs = .call 0 (.readThermocouple (.intact got)) :: [] ∧
    (demo (.call 0 (.readThermocouple (.intact got)))).bus = .idle ∧
    (demo (.call 0 (.readThermocouple (.intact got)))).driver = some ⟨0x3, 2, .oneShotPending⟩ ∧
    (demo (.call 0 (.readThermocouple (.intact got)))).device.settled = true ∧ got ≤ 3 := by
  simp [demo, demoDevice, State.reset]
theorem witness_ColdJunctionRead : ∀ got ∈ [0, 2, 3],
    (demo (.call 0 (.readColdJunction (.intact got)))).inputs = .call 0 (.readColdJunction (.intact got)) :: [] ∧
    (demo (.call 0 (.readColdJunction (.intact got)))).bus = .idle ∧
    (demo (.call 0 (.readColdJunction (.intact got)))).driver = some ⟨0x3, 2, .oneShotPending⟩ ∧
    (demo (.call 0 (.readColdJunction (.intact got)))).device.settled = true ∧ got ≤ 3 := by
  simp [demo, demoDevice, State.reset]
/-- The clauses of `DeviceWriteTakesTheAgentsOwnResult`: no own pair, and own pairs (an error, an OK) under a newer pair
of another agent. -/
theorem witness_DeviceWrite_none : ∃ s : State, s.inputs = .action (.busWriteResult 0) :: [] ∧
    ∀ r ∈ s.returned, r.agent ≠ 0 :=
  ⟨{ waiting (.busWriteResult 0) with returned := [⟨1, .ok, 5⟩] }, rfl, by decide⟩
theorem witness_DeviceWrite_pair : ∀ r ∈ [(⟨0, .length, 0⟩ : Response), ⟨0, .ok, 0x41⟩],
    ∀ p ∈ [BusPhase.writing 0 .cr0, .writing 0 .cr1], ∃ s : State,
    s.inputs = .action (.busWriteResult 0) :: [] ∧ s.returned = [⟨1, .ok, 5⟩] ++ r :: [] ∧
    (∀ x ∈ [(⟨1, .ok, 5⟩ : Response)], x.agent ≠ 0) ∧ r.agent = 0 ∧ s.bus = p := fun r hr p _ =>
  ⟨{ waiting (.busWriteResult 0) with returned := [⟨1, .ok, 5⟩, r], bus := p }, rfl, rfl, by decide,
    by simp at hr; rcases hr with rfl | rfl <;> rfl, rfl⟩
/-- The clauses of `FaultStatusIsFreeAfterARead`. -/
theorem witness_FaultRead : ∃ s : State, s.inputs = .call 0 (.readFault (.intact 1)) :: [] ∧ s.bus = .idle ∧
    s.driver = some ⟨0x3, 2, .oneShotPending⟩ := ⟨demo (.call 0 (.readFault (.intact 1))), rfl, rfl, rfl⟩
theorem witness_FaultRead_other : ∀ b ∈ [BusAction.csHigh, .read 1 (.intact 0), .read 1 (.intact 1), .read 1 (.garbled [7])],
    ∃ s : State, s.inputs = .action (.bus 0 b) :: [] ∧ s.bus = .reading 0 .faultStatus ∧
    (b = .csHigh ∨ (∃ got, got ≤ 1 ∧ b = .read 1 (.intact got)) ∨
      ∃ bytes, bytes.length ≤ 1 ∧ b = .read 1 (.garbled bytes)) := fun b hb =>
  ⟨{ waiting (.bus 0 b) with bus := .reading 0 .faultStatus }, rfl, rfl, by
    simp at hb; rcases hb with rfl | rfl | rfl | rfl <;> simp⟩
theorem witness_Conversion : (waiting (.conversionDone ⟨0, 0, 0⟩ ⟨0, 0, 0⟩ 1)).inputs =
    .action (.conversionDone ⟨0, 0, 0⟩ ⟨0, 0, 0⟩ 1) :: [] := rfl
theorem witness_OneShotWait : ∃ s : State, s.bus = .idle ∧ s.device.settled = false :=
  ⟨{ demo (.action .reset) with device := { demoDevice with settled := false } }, rfl, rfl⟩

end Sys2Proof.Tests
end

/-! # The response registers (10_state.md): lemmas and proofs -/

namespace Sys2Proof.Machine

/-! ## One waiting action -/

/-- A step with an action waiting is that action, on the state without it. -/
theorem step_eq_perform {s : State} {x : HostAction} {rest : List HostInput} (h : s.inputs = .action x :: rest) :
    step s = perform x { s with inputs := rest } := by
  simp only [step, h, handleInput]

/-- A status is read back from its code (R96). -/
@[simp] theorem status_ofCode_code (st : Status) : Status.ofCode st.code = st := by
  cases st <;> rfl

/-! ## What leaves the block alone -/

theorem readRsp_sameBlock (r : RspReg) (s : State) : SameBlock s (readRsp r s) := ⟨rfl, rfl, rfl, rfl, rfl, rfl⟩

theorem conversionDone_sameBlock (cj tc : Bytes3) (sr : Byte) (s : State) :
    SameBlock s (conversionDone cj tc sr s) := ⟨rfl, rfl, rfl, rfl, rfl, rfl⟩

/-- Only requests and reset touch the block (R20, R111). -/
theorem perform_sameBlock {x : HostAction} {s t : State} (hreq : ∀ a req, x ≠ .request a req)
    (hrec : ∀ a o, x ≠ .requestReceived a o) (hreset : x ≠ .reset) (h : perform x s = .next t) : SameBlock s t := by
  cases x with
  | request a req => exact absurd rfl (hreq a req)
  | requestReceived a o => exact absurd rfl (hrec a o)
  | reset => exact absurd rfl hreset
  | readRsp r => cases h; exact readRsp_sameBlock r s
  | useRspData =>
    obtain ⟨-, -, rfl⟩ := useRspData_eq_next h
    exact readRsp_sameBlock .data s
  | bus a b => exact busStep_sameBlock h
  | busWriteResult a =>
    obtain ⟨_, -, -, hbus⟩ := busWriteResult_eq_next h
    exact busStep_sameBlock hbus
  | conversionDone cj tc sr => cases h; exact conversionDone_sameBlock cj tc sr s

/-! ## The three cases of using `RSP_DATA` -/

theorem useRspData_of_unused {s : State} (hv : s.rspValid = false) : useRspData s = .fault .noResult := by
  simp [useRspData, hv]

theorem useRspData_of_error {s : State} (hv : s.rspValid = true) (hst : s.rspStatus ≠ Status.ok.code) :
    useRspData s = .fault .errorDataUsed := by
  simp [useRspData, hv, hst]

theorem useRspData_of_ok {s : State} (hv : s.rspValid = true) (hst : s.rspStatus = Status.ok.code) :
    useRspData s = .next (readRsp .data s) := by
  simp [useRspData, hv, hst]

/-! ## The results of the operations lie in their ranges -/

/-- The bounded halving loop counts the halvings down to 1 (R69, R70). -/
theorem halvings_eq_log2 {bound n : Nat} (h : n ≤ bound) : halvings bound n = Nat.log2 n := by
  induction bound generalizing n with
  | zero => simp [halvings, Nat.le_zero.1 h]
  | succ bound ih =>
    rw [halvings, Nat.log2_def, Nat.shiftRight_one, ih (by omega)]; rfl

theorem level_eq_log2 (a : Nat) : level a = Nat.log2 a := halvings_eq_log2 le_rfl

/-- The level of an 8-bit count fits its 3-bit field (R70). -/
theorem level_lt (avgSel : BitVec 8) : level avgSel.toNat < 8 := by
  rw [level_eq_log2]
  by_cases h : avgSel.toNat = 0
  · simp [h]
  · exact (Nat.log2_lt h).2 avgSel.isLt

/-- Bit 7 of a CR1 byte is clear (R58). -/
theorem cr1Byte_toNat_lt (avgSel : BitVec 8) (tcType : BitVec 4) : (cr1Byte avgSel tcType).toNat < 128 := by
  have hl : level avgSel.toNat <<< 4 < 2 ^ 7 := by
    have := level_lt avgSel
    rw [Nat.shiftLeft_eq]; omega
  have ht : tcType.toNat < 2 ^ 7 := by omega
  exact (Nat.mod_le _ _).trans_lt (Nat.or_lt_two_pow ht hl)

/-- A set sign bit is a byte of at least 0x80 (R7). -/
theorem signBit_eq (b : Byte) : signBit b = decide (128 ≤ b.toNat) := by
  revert b; decide

/-- The cold-junction field as a quotient (R61, R82). -/
theorem cjField_eq (msb lsb : Byte) : cjField msb lsb = (msb.toNat * 256 + lsb.toNat) / 4 := by
  rw [cjField, ← Nat.shiftLeft_add_eq_or_of_lt lsb.isLt, Nat.shiftLeft_eq, Nat.shiftRight_eq_div_pow]

/-- The thermocouple field as a quotient (R62, R89). -/
theorem tcField_eq (high mid low : Byte) :
    tcField high mid low = (high.toNat * 65536 + mid.toNat * 256 + low.toNat) / 32 := by
  have hmid : mid.toNat <<< 8 ||| low.toNat = mid.toNat * 256 + low.toNat := by
    rw [← Nat.shiftLeft_add_eq_or_of_lt low.isLt, Nat.shiftLeft_eq]
  have hlt : mid.toNat * 256 + low.toNat < 2 ^ 16 := by omega
  rw [tcField, Nat.or_assoc, hmid, ← Nat.shiftLeft_add_eq_or_of_lt hlt, Nat.shiftLeft_eq,
    Nat.shiftRight_eq_div_pow, Nat.add_assoc]

/-- The range of R86. -/
theorem cjValue_range (offset msb lsb : Byte) : -8192 ≤ cjValue offset msb lsb ∧ cjValue offset msb lsb ≤ 8446 := by
  simp only [cjValue, cjField_eq, signBit_eq, decide_eq_true_eq]
  split <;> omega

/-- The range of R91. -/
theorem tcValue_range (high mid low : Byte) :
    -262144 ≤ tcValue high mid low ∧ tcValue high mid low ≤ 262143 := by
  simp only [tcValue, tcField_eq, signBit_eq, decide_eq_true_eq]
  split <;> omega

/-- A value of 32 bits survives `sext_32` (R10). -/
theorem sext32_toInt {v : Int} (hl : -2 ^ 31 ≤ v) (hu : v < 2 ^ 31) : (sext32 v).toInt = v :=
  BitVec.toInt_ofInt_eq_self (by decide) hl hu

/-! ### The data word of each operation -/

theorem okDataShape_cr0Byte (oneShot f50 : Bool) :
    okDataShape Opcode.buildCr0.code (zext32 (cr0Byte oneShot f50)) = true := by
  cases oneShot <;> cases f50 <;> rfl

theorem okDataShape_cr1Byte (avgSel : BitVec 8) (tcType : BitVec 4) :
    okDataShape Opcode.buildCr1.code (zext32 (cr1Byte avgSel tcType)) = true := by
  have hlt := cr1Byte_toNat_lt avgSel tcType
  simp only [okDataShape, opcode_ofCode_code, zext32, BitVec.toNat_setWidth, decide_eq_true_eq]
  omega

theorem okDataShape_faultByte (sr : Byte) : okDataShape Opcode.decodeFault.code (zext32 sr) = true := by
  simp only [okDataShape, opcode_ofCode_code, zext32, BitVec.toNat_setWidth, decide_eq_true_eq]
  omega

theorem okDataShape_cjValue (offset msb lsb : Byte) :
    okDataShape Opcode.decodeCj.code (sext32 (cjValue offset msb lsb)) = true := by
  have hr := cjValue_range offset msb lsb
  simpa only [okDataShape, opcode_ofCode_code, decide_eq_true_eq,
    sext32_toInt (v := cjValue offset msb lsb) (by omega) (by omega)] using hr

theorem okDataShape_tcValue (high mid low : Byte) :
    okDataShape Opcode.decodeTc.code (sext32 (tcValue high mid low)) = true := by
  have hr := tcValue_range high mid low
  simpa only [okDataShape, opcode_ofCode_code, decide_eq_true_eq,
    sext32_toInt (v := tcValue high mid low) (by omega) (by omega)] using hr

/-- An operation answers with a result in its own range (R58, R68, R75, R86, R91). -/
theorem exec_okDataShape (i : Instr) (s : State) :
    ∃ data, exec i s = .next (respond i.opcode.code .ok data s) ∧ okDataShape i.opcode.code data = true := by
  cases i with
  | buildCr0 oneShot f50 => exact ⟨_, rfl, okDataShape_cr0Byte oneShot f50⟩
  | buildCr1 avgSel tcType => exact ⟨_, rfl, okDataShape_cr1Byte avgSel tcType⟩
  | decodeFault sr => exact ⟨_, rfl, okDataShape_faultByte sr⟩
  | decodeCj offset msb lsb => exact ⟨_, rfl, okDataShape_cjValue offset msb lsb⟩
  | decodeTc high mid low => exact ⟨_, rfl, okDataShape_tcValue high mid low⟩

/-! ## Every answer has the shape of an answer -/

theorem respond_data_inj {op : BitVec 4} {st : Status} {d d' : Word} {s : State}
    (h : (.next (respond op st d s) : Result) = .next (respond op st d' s)) : d = d' := by
  injection h with h
  exact congrArg State.rspData h

/-- A rejected word is ILLEGAL_OP exactly for a reserved OP (R97 to R99). -/
theorem answerShape_of_rejected {req : Word} {st : Status} (h : decode req = .rejected st) :
    answerShape (Fields.ofWord req).op st 0#32 = true := by
  rcases decode_cases req with ⟨hop, hd⟩ | ⟨o, hop, ⟨-, hd⟩ | ⟨-, -, hd⟩ | ⟨-, -, hd⟩⟩ <;> rw [hd] at h <;> cases h
  all_goals simp [answerShape, hop]

/-- Serving a request is one `respond` of one of R17's possible answers. -/
theorem serve_answerShape (a : Agent) (req : Word) (s : State) :
    ∃ st data, serve a req s = .next (respond (Fields.ofWord req).op st data { s with issuer := a }) ∧
      answerShape (Fields.ofWord req).op st data = true := by
  obtain ⟨st, data, hserve, ⟨-, rfl, hdec⟩ | ⟨i, rfl, -, hop, hexec⟩⟩ := serve_eq_respond req
  · exact ⟨st, 0#32, hserve a s, answerShape_of_rejected hdec⟩
  · refine ⟨.ok, data, hserve a s, ?_⟩
    obtain ⟨data', hexec', hshape⟩ := exec_okDataShape i s
    obtain rfl : data = data' := respond_data_inj ((hexec s).symm.trans hexec')
    rw [hop]; exact hshape

/-- An error answer carries data 0 (R56, R101). -/
theorem data_eq_zero_of_answerShape {op : BitVec 4} {st : Status} {data : Word}
    (h : answerShape op st data = true) (hst : st ≠ .ok) : data = 0 := by
  cases st with
  | ok => exact absurd rfl hst
  | illegalOp | length | reservedField =>
    simp only [answerShape, Bool.and_eq_true, beq_iff_eq] at h
    exact h.2

/-! ## `ResponsesConsistent` -/

theorem responsesConsistent_reset : ResponsesConsistent State.reset where
  unused _ := ⟨rfl, rfl, rfl⟩
  shaped h := nomatch h
  paired h := nomatch h
  errorsZero _ h := nomatch h

/-- A response of the right shape makes the registers consistent, whatever they held before. -/
theorem respond_responsesConsistent {op : BitVec 4} {st : Status} {data : Word} {s : State}
    (hshape : answerShape op st data = true) (hzero : ∀ r ∈ s.returned, r.status ≠ .ok → r.data = 0) :
    ResponsesConsistent (respond op st data s) where
  unused h := nomatch h
  shaped _ := by simpa using hshape
  paired _ := by simp
  errorsZero r hr hst := by
    obtain rfl | hr := List.mem_cons.1 hr
    · exact data_eq_zero_of_answerShape hshape hst
    · exact hzero r hr hst

theorem resetBlock_responsesConsistent {s : State} (hs : ResponsesConsistent s) :
    ResponsesConsistent (resetBlock s) where
  unused _ := ⟨rfl, rfl, rfl⟩
  shaped h := nomatch h
  paired h := nomatch h
  errorsZero := hs.errorsZero

/-- The invariant looks at the block and its port only. -/
theorem SameBlock.responsesConsistent {s t : State} (h : SameBlock s t) (hs : ResponsesConsistent s) :
    ResponsesConsistent t := by
  obtain ⟨hvalid, hstatus, hop, hdata, hissuer, hreturned⟩ := h
  constructor
  · rw [hvalid, hstatus, hop, hdata]; exact hs.unused
  · rw [hvalid, hstatus, hop, hdata]; exact hs.shaped
  · rw [hvalid, hstatus, hdata, hissuer, hreturned]; exact hs.paired
  · rw [hreturned]; exact hs.errorsZero

theorem serve_responsesConsistent {a : Agent} {req : Word} {s t : State} (hs : ResponsesConsistent s)
    (h : serve a req s = .next t) : ResponsesConsistent t := by
  obtain ⟨st, data, hserve, hshape⟩ := serve_answerShape a req s
  rw [hserve] at h
  cases h
  exact respond_responsesConsistent hshape hs.errorsZero

theorem perform_responsesConsistent (x : HostAction) (s t : State) (hs : ResponsesConsistent s)
    (h : perform x s = .next t) : ResponsesConsistent t := by
  cases x with
  | request a req => exact serve_responsesConsistent hs h
  | requestReceived a o =>
    obtain ⟨_, -, hserve⟩ := serveReceived_eq_next h
    exact serve_responsesConsistent hs hserve
  | reset => cases h; exact resetBlock_responsesConsistent hs
  | _ => exact (perform_sameBlock (by simp) (by simp) (by simp) h).responsesConsistent hs

/-! ## A waiting request -/

/-- The word alone decides the pair that the step serving it answers with (R18, R19). -/
theorem step_request_eq_respond (req : Word) :
    ∃ st data, ∀ (s : State) (a : Agent) (rest : List HostInput), s.inputs = .action (.request a req) :: rest →
      step s = .next (respond (Fields.ofWord req).op st data { s with inputs := rest, issuer := a }) := by
  obtain ⟨st, data, hserve, -⟩ := serve_eq_respond req
  exact ⟨st, data, fun s a rest h => (step_eq_perform h).trans (hserve a _)⟩

end Sys2Proof.Machine

namespace Sys2Proof.Proofs

open Sys2Proof Sys2Proof.Machine

/-- Settles O8: every action keeps the invariant, which looks neither at the waiting inputs nor at the driver's
handle. -/
theorem stepKeepsResponsesConsistent : Obligations.StepKeepsResponsesConsistent := by
  intro s t
  refine step_induct perform_responsesConsistent (fun s d => ?_) (fun s xs => ?_)
  · exact SameBlock.responsesConsistent ⟨rfl, rfl, rfl, rfl, rfl, rfl⟩
  · exact SameBlock.responsesConsistent ⟨rfl, rfl, rfl, rfl, rfl, rfl⟩

/-- Settles O4. -/
theorem everyRequestEndsInOneResponse : Obligations.EveryRequestEndsInOneResponse := by
  intro s a req rest h
  obtain ⟨st, data, hstep⟩ := step_request_eq_respond req
  exact ⟨st, data, hstep s a rest h⟩

/-- Settles O5: a read is `readRsp`, and every other input that neither requests nor resets keeps the block. -/
theorem hostReadsAndNeverWritesResponseRegisters : Obligations.HostReadsAndNeverWritesResponseRegisters := by
  constructor
  · intro s r rest h
    refine ⟨rspRegValue r s, step_eq_perform h, ?_, ?_, ?_, ?_⟩ <;> rintro rfl
    · cases hv : s.rspValid <;> simp [rspRegValue, hv]
    · simp only [rspRegValue, BitVec.toNat_setWidth]; omega
    · simp only [rspRegValue, BitVec.toNat_setWidth]; omega
    · rfl
  · intro s t x rest h hreq hrec hreset hstep
    rw [step_eq_perform h] at hstep
    obtain ⟨hvalid, hstatus, hop, hdata, -, -⟩ := perform_sameBlock hreq hrec hreset hstep
    exact ⟨hvalid, hstatus, hop, hdata⟩

/-- Settles O40: both steps respond with the pair the word decides. -/
theorem answerDependsOnTheRequestAlone : Obligations.AnswerDependsOnTheRequestAlone := by
  intro s s' t t' a a' req rest rest' h h' ht ht'
  obtain ⟨st, data, hstep⟩ := step_request_eq_respond req
  obtain rfl := Host.Outcome.next.inj ((hstep s a rest h).symm.trans ht)
  obtain rfl := Host.Outcome.next.inj ((hstep s' a' rest' h').symm.trans ht')
  exact ⟨rfl, rfl, rfl, rfl, rfl⟩

/-- Settles O1. -/
theorem resetValuesOfResponseRegisters : Obligations.ResetValuesOfResponseRegisters :=
  ⟨rfl, rfl, rfl, rfl⟩

/-- Settles O6: the three branches of `useRspData`, which is the step once the input is taken. -/
theorem rspDataIsAResultOnlyAfterAnOkResponse : Obligations.RspDataIsAResultOnlyAfterAnOkResponse := by
  intro s rest h
  rw [step_eq_perform h]
  exact ⟨useRspData_of_unused (s := { s with inputs := rest }), useRspData_of_error (s := { s with inputs := rest }),
    useRspData_of_ok (s := { s with inputs := rest })⟩

/-- Settles O7. -/
theorem resetStateIsConsistent : Obligations.ResetStateIsConsistent := responsesConsistent_reset

end Sys2Proof.Proofs

/-! # Requests, the bus and the device (20_memory.md): lemmas and proofs -/

namespace Sys2Proof.Machine

/-! ## The fields of a word -/

/-- A word made up of fields has these fields (R46). -/
@[simp] theorem ofWord_toWord (f : Fields) : Fields.ofWord f.toWord = f := by
  have h : ∀ (op : BitVec 4) (cnt rsv : BitVec 2) (b0 b1 b2 : BitVec 8),
      (op ++ cnt ++ rsv ++ b0 ++ b1 ++ b2).extractLsb' 28 4 = op ∧
      (op ++ cnt ++ rsv ++ b0 ++ b1 ++ b2).extractLsb' 26 2 = cnt ∧
      (op ++ cnt ++ rsv ++ b0 ++ b1 ++ b2).extractLsb' 24 2 = rsv ∧
      (op ++ cnt ++ rsv ++ b0 ++ b1 ++ b2).extractLsb' 16 8 = b0 ∧
      (op ++ cnt ++ rsv ++ b0 ++ b1 ++ b2).extractLsb' 8 8 = b1 ∧
      (op ++ cnt ++ rsv ++ b0 ++ b1 ++ b2).extractLsb' 0 8 = b2 := by
    intros
    simp (disch := omega) only [BitVec.extractLsb'_append_eq_of_le, BitVec.extractLsb'_append_eq_of_add_le]
    simp
  obtain ⟨op, cnt, rsv, b0, b1, b2⟩ := f
  obtain ⟨hop, hcnt, hrsv, h0, h1, h2⟩ := h op cnt rsv b0 b1 b2
  exact Fields.mk.injEq .. ▸ ⟨hop, hcnt, hrsv, h0, h1, h2⟩

/-- OP of an encoded instruction is its operation's code (R47). -/
theorem encode_op (i : Instr) : (Fields.ofWord (encode i)).op = i.opcode.code := by
  cases i <;> simp [encode, Opcode.request, Instr.opcode]

/-! ## The closed form of the operations' data -/

/-- The cold-junction field as a signed 14-bit number (R85). -/
theorem cjField_toInt (msb lsb : Byte) : ((msb ++ lsb).extractLsb' 2 14).toInt =
    if signBit msb then (cjField msb lsb : Int) - 0x4000 else cjField msb lsb := by
  have hfield : ((msb ++ lsb).extractLsb' 2 14).toNat = cjField msb lsb % 2 ^ 14 := by
    rw [BitVec.extractLsb'_toNat, BitVec.toNat_append, cjField]
  simp only [BitVec.toInt_eq_toNat_cond, hfield, cjField_eq, signBit_eq, decide_eq_true_eq]
  split <;> split <;> omega

/-- The thermocouple field as a signed 19-bit number (R90). -/
theorem tcField_toInt (high mid low : Byte) : ((high ++ mid ++ low).extractLsb' 5 19).toInt =
    if signBit high then (tcField high mid low : Int) - 0x80000 else tcField high mid low := by
  have hfield : ((high ++ mid ++ low).extractLsb' 5 19).toNat = tcField high mid low % 2 ^ 19 := by
    rw [BitVec.extractLsb'_toNat, BitVec.toNat_append, BitVec.toNat_append, tcField]
    rw [Nat.shiftLeft_or_distrib, ← Nat.shiftLeft_add]
  simp only [BitVec.toInt_eq_toNat_cond, hfield, tcField_eq, signBit_eq, decide_eq_true_eq]
  split <;> split <;> omega

theorem cr0Byte_eq_closedData (f : Fields) :
    zext32 (cr0Byte (f.b0.getLsbD 1) (f.b0.getLsbD 0)) = closedData .buildCr0 f := by
  rw [closedData]
  cases f.b0.getLsbD 1 <;> cases f.b0.getLsbD 0 <;> rfl

theorem cr1Byte_eq_closedData (f : Fields) :
    zext32 (cr1Byte f.b0 (f.b1.extractLsb' 0 4)) = closedData .buildCr1 f := by
  have hlevel := level_lt f.b0
  have hpack : (f.b1.extractLsb' 0 4).toNat ||| level f.b0.toNat <<< 4 =
      16 * Nat.log2 f.b0.toNat + f.b1.toNat % 16 := by
    rw [Nat.or_comm, ← Nat.shiftLeft_add_eq_or_of_lt (BitVec.isLt _), level_eq_log2, BitVec.extractLsb'_toNat,
      Nat.shiftLeft_eq]
    omega
  rw [level_eq_log2] at hlevel
  apply BitVec.eq_of_toNat_eq
  rw [closedData, zext32, cr1Byte, hpack, BitVec.toNat_setWidth, BitVec.toNat_ofNat, BitVec.toNat_ofNat]
  omega

theorem faultByte_eq_closedData (f : Fields) : zext32 f.b0 = closedData .decodeFault f :=
  (BitVec.ofNat_toNat 32 f.b0).symm

theorem cjValue_eq_closedData (f : Fields) : sext32 (cjValue f.b0 f.b1 f.b2) = closedData .decodeCj f := by
  rw [closedData, cjField_toInt, sext32, cjValue]
  congr 1
  split <;> push_cast <;> ring

theorem tcValue_eq_closedData (f : Fields) : sext32 (tcValue f.b0 f.b1 f.b2) = closedData .decodeTc f := by
  rw [closedData, BitVec.signExtend, tcField_toInt, sext32, tcValue]

/-- An operation answers with its closed form (R68, R70, R75, R85, R90). -/
theorem exec_operands (o : Opcode) (f : Fields) (s : State) :
    exec (o.operands f) s = .next (respond o.code .ok (closedData o f) s) := by
  cases o with
  | buildCr0 => rw [← cr0Byte_eq_closedData]; rfl
  | buildCr1 => rw [← cr1Byte_eq_closedData]; rfl
  | decodeFault => rw [← faultByte_eq_closedData]; rfl
  | decodeCj => rw [← cjValue_eq_closedData]; rfl
  | decodeTc => rw [← tcValue_eq_closedData]; rfl

/-! ## The opcode table's rows -/

/-- The row of an operation: OP, CNT and the reserved bits are masked, and match when the reserved bits are 0. -/
def rowOf (o : Opcode) : Row := ⟨o, 0xFC000000 ||| o.reservedMask, o.code ++ o.requiredCnt ++ 0#26⟩

/-- The rows of the opcode table are those of the operations. -/
theorem mem_opcodeTable {r : Row} : r ∈ opcodeTable ↔ r = rowOf r.opcode := by
  constructor
  · intro h
    fin_cases h <;> rfl
  · intro h
    rw [h]
    cases r.opcode <;> decide

/-- Two concatenations of the same widths are equal exactly when their parts are. -/
theorem bitVec_append_inj {v w : Nat} {a a' : BitVec v} {b b' : BitVec w} :
    a ++ b = a' ++ b' ↔ a = a' ∧ b = b' := by
  constructor
  · intro h
    exact ⟨by simpa only [BitVec.extractLsb'_append_eq_left] using congrArg (BitVec.extractLsb' w v) h,
      by simpa only [BitVec.extractLsb'_append_eq_right] using congrArg (BitVec.extractLsb' 0 w) h⟩
  · rintro ⟨rfl, rfl⟩; rfl

/-- OP and CNT are the six high bits of a word (R46). -/
theorem and_opCntMask (req : Word) :
    req &&& 0xFC000000 = (Fields.ofWord req).op ++ (Fields.ofWord req).cnt ++ 0#26 := by
  have hreq : req.extractLsb' 28 4 ++ req.extractLsb' 26 2 ++ req.extractLsb' 0 26 = req := by
    rw [BitVec.extractLsb'_append_extractLsb'_eq_extractLsb' (by rfl),
      BitVec.extractLsb'_append_extractLsb'_eq_extractLsb' (by rfl)]
    exact BitVec.extractLsb'_eq_self
  have hand : ∀ (a : BitVec 4) (b : BitVec 2) (c : BitVec 26),
      (a ++ b ++ c) &&& (BitVec.allOnes 4 ++ BitVec.allOnes 2 ++ 0#26) = a ++ b ++ 0#26 := by
    intro a b c
    simp only [BitVec.and_append, BitVec.and_zero, BitVec.and_allOnes]
  exact (congrArg (· &&& 0xFC000000) hreq.symm).trans (hand _ _ _)

/-- A word matches under two disjoint masks together when it does under each. -/
theorem and_or_eq_iff {x h r m : Word} (hmh : m &&& h = m) (hhr : h &&& r = 0#32) :
    x &&& (h ||| r) = m ↔ x &&& h = m ∧ x &&& r = 0#32 := by
  constructor
  · intro hx
    have hxh : x &&& h = m := by
      rw [← hmh, ← hx, BitVec.and_assoc, BitVec.and_or_distrib_right, BitVec.and_self, BitVec.and_comm r h, hhr,
        BitVec.or_zero]
    have hxr : x &&& r = m &&& r := by
      rw [← hx, BitVec.and_assoc, BitVec.and_or_distrib_right, BitVec.and_self, hhr, BitVec.zero_or]
    refine ⟨hxh, ?_⟩
    rw [hxr, ← hmh, BitVec.and_assoc, hhr, BitVec.and_zero]
  · rintro ⟨hxh, hxr⟩
    rw [BitVec.and_or_distrib_left, hxh, hxr, BitVec.or_zero]

/-- A word matches the row of an operation exactly when it passes the three checks of R55 with it. -/
theorem hits_rowOf (o : Opcode) (req : Word) : (rowOf o).hits req = true ↔
    (Fields.ofWord req).op = o.code ∧ (Fields.ofWord req).cnt = o.requiredCnt ∧ req &&& o.reservedMask = 0#32 := by
  have hmask : (rowOf o).matchBits &&& 0xFC000000 = (rowOf o).matchBits ∧
      0xFC000000#32 &&& o.reservedMask = 0#32 := by
    cases o <;> decide
  obtain ⟨hmatch, hdisjoint⟩ := hmask
  rw [Row.hits, beq_iff_eq, ← and_assoc]
  refine (and_or_eq_iff hmatch hdisjoint).trans (and_congr_left' ?_)
  rw [and_opCntMask]
  exact bitVec_append_inj.trans (by rw [bitVec_append_inj]; simp)

/-- The first row a word matches is that of the operation it spells. -/
theorem find_row_of_hits {o : Opcode} {req : Word} (h : (rowOf o).hits req = true) :
    opcodeTable.find? (fun r => r.hits req) = some (rowOf o) := by
  cases hfind : opcodeTable.find? (fun r => r.hits req) with
  | none => exact absurd h (List.find?_eq_none.1 hfind _ (mem_opcodeTable.2 rfl))
  | some r =>
    have hr := mem_opcodeTable.1 (List.mem_of_find?_eq_some hfind)
    have hhits := List.find?_some hfind
    rw [hr] at hhits
    have hcode : r.opcode.code = o.code := ((hits_rowOf _ _).1 hhits).1.symm.trans ((hits_rowOf _ _).1 h).1
    have hopcode : r.opcode = o := Option.some.inj (by rw [← opcode_ofCode_code, hcode, opcode_ofCode_code])
    rw [hr, hopcode]

/-! ## Every request is answered with the closed form -/

theorem answer_of_hits {o : Opcode} {req : Word} (h : (rowOf o).hits req = true) :
    answer req = (.ok, closedData o (Fields.ofWord req)) := by
  rw [answer, find_row_of_hits h]; rfl

theorem answer_of_rejection {req : Word} (h : ∀ o, (rowOf o).hits req ≠ true) : answer req = (rejection req, 0) := by
  have hfind : opcodeTable.find? (fun r => r.hits req) = none := by
    refine List.find?_eq_none.2 fun r hr => ?_
    rw [mem_opcodeTable.1 hr]
    exact h _
  rw [answer, hfind]

/-- The block answers a request as the table's rows and the closed forms say (R55, R100). -/
theorem serve_eq_answer (a : Agent) (req : Word) (s : State) : serve a req s =
    .next (respond (Fields.ofWord req).op (answer req).1 (answer req).2 { s with issuer := a }) := by
  rcases decode_cases req with ⟨hop, hdec⟩ | ⟨o, hop, hchecks⟩
  · have hnone : ∀ o, (rowOf o).hits req ≠ true := fun o ho => by
      rw [((hits_rowOf o req).1 ho).1] at hop
      simp at hop
    simp [serve, hdec, answer_of_rejection hnone, rejection, hop]
  · have hother : ∀ o', (rowOf o').hits req = true → o' = o := fun o' ho' => by
      rw [((hits_rowOf o' req).1 ho').1, opcode_ofCode_code] at hop
      exact Option.some.inj hop
    rcases hchecks with ⟨hcnt, hdec⟩ | ⟨hcnt, hres, hdec⟩ | ⟨hcnt, hres, hdec⟩
    · have hnone : ∀ o', (rowOf o').hits req ≠ true := fun o' ho' =>
        hcnt (hother o' ho' ▸ ((hits_rowOf o' req).1 ho').2.1)
      simp [serve, hdec, answer_of_rejection hnone, rejection, hop, hcnt]
    · have hnone : ∀ o', (rowOf o').hits req ≠ true := fun o' ho' =>
        hres (hother o' ho' ▸ ((hits_rowOf o' req).1 ho').2.2)
      simp [serve, hdec, answer_of_rejection hnone, rejection, hop, hcnt]
    · have hcode := opcode_ofCode_eq_some.1 hop
      simp [serve, hdec, answer_of_hits ((hits_rowOf o req).2 ⟨hcode, hcnt, hres⟩), exec_operands, hcode]

/-! ## Sequences of requests -/

theorem core_run_succ {s t : State} (h : step s = .next t) (k : Nat) : core.run (k + 1) s = core.run k t := by
  have hcore : core.step s = .next t := h
  simp only [Host.Core.run, hcore]

/-! ## The well-framed bus -/

theorem serve_bus_transport {a : Agent} {req : Word} {s t : State} (h : serve a req s = .next t) :
    t.bus = s.bus ∧ t.transport = s.transport := by
  obtain ⟨st, data, hserve, -⟩ := serve_eq_respond req
  rw [hserve] at h
  cases h
  exact ⟨rfl, rfl⟩

/-- An action that goes on is one action on the bus, or leaves the frame and the last transaction's result alone. -/
theorem perform_eq_next_bus {x : HostAction} {s t : State} (h : perform x s = .next t) :
    (∃ a b, busStep a b s = .next t) ∨ (t.bus = s.bus ∧ t.transport = s.transport) := by
  cases x with
  | request a req => exact .inr (serve_bus_transport h)
  | requestReceived a o =>
    obtain ⟨_, -, hserve⟩ := serveReceived_eq_next h
    exact .inr (serve_bus_transport hserve)
  | reset => cases h; exact .inr ⟨rfl, rfl⟩
  | readRsp r => cases h; exact .inr ⟨rfl, rfl⟩
  | useRspData =>
    obtain ⟨-, -, rfl⟩ := useRspData_eq_next h
    exact .inr ⟨rfl, rfl⟩
  | bus a b => exact .inl ⟨a, b, h⟩
  | busWriteResult a =>
    obtain ⟨r, -, -, hbus⟩ := busWriteResult_eq_next h
    exact .inl ⟨a, _, hbus⟩
  | conversionDone cj tc sr => cases h; exact .inr ⟨rfl, rfl⟩

/-- The invariant looks at the frame and the last transaction's result only. -/
theorem BusWellFramed.congr {s t : State} (hs : BusWellFramed s) (hbus : t.bus = s.bus)
    (htransport : t.transport = s.transport) : BusWellFramed t :=
  ⟨hbus ▸ hs.phase, htransport ▸ hs.received⟩

/-- A legal phase of the frame, entered with the last transaction's result standing, keeps the invariant. -/
theorem BusWellFramed.enter {s t : State} (hs : BusWellFramed s) (hbus : busLegal t.bus = true)
    (htransport : t.transport = s.transport) : BusWellFramed t :=
  ⟨hbus, htransport ▸ hs.received⟩

/-- A data phase that is legal received no more than three bytes. -/
theorem length_le_of_busLegal_done {o : Agent} {bytes : List Byte}
    (h : busLegal (.done o (.received bytes)) = true) : bytes.length ≤ 3 := by
  simpa [busLegal] using h

/-- Ending a legal data phase hands its result on (R31 to R33). -/
theorem BusWellFramed.finish {s : State} (hs : BusWellFramed s) {o : Agent} {res : TransportResult}
    (hbus : s.bus = .done o res) : BusWellFramed { s with bus := .idle, transport := res } where
  phase := rfl
  received bytes hres := length_le_of_busLegal_done (o := o) <| by
    have := hs.phase
    rwa [hbus, show res = .received bytes from hres] at this

theorem addressPhase_busWellFramed {a : Agent} {v : Byte} {s t : State} (hs : BusWellFramed s)
    (h : addressPhase a v s = .next t) : BusWellFramed t := by
  obtain ⟨r, -, ⟨-, hwritable, rfl⟩ | ⟨-, hreadable, rfl⟩⟩ := addressPhase_eq_next h
  · exact hs.enter hwritable rfl
  · exact hs.enter hreadable rfl

theorem readPhase_busWellFramed {a : Agent} {r : DevReg} {n : Nat} {d : Delivery} {s t : State}
    (hs : BusWellFramed s) (h : readPhase a r n d s = .next t) : BusWellFramed t := by
  obtain ⟨-, bytes, u, w, hlength, hu, rfl⟩ := readPhase_eq_next h
  refine hs.enter (by simpa [busLegal] using hlength) ?_
  rcases hu with rfl | rfl <;> simp

theorem frameStep_busWellFramed {a : Agent} {b : BusAction} {s t : State} (hs : BusWellFramed s)
    (h : frameStep a b s = .next t) : BusWellFramed t := by
  rcases frameStep_eq_next h with ⟨-, -, rfl⟩ | ⟨o, v, -, -, haddress⟩ | ⟨o, r, v, -, -, rfl⟩ |
    ⟨o, r, n, d, -, -, hread⟩ | ⟨o, res, hdone, -, rfl⟩ | ⟨-, -, -, rfl⟩
  · exact hs.enter rfl rfl
  · exact addressPhase_busWellFramed hs haddress
  · exact hs.enter rfl (writeEffect_transport r v s)
  · exact readPhase_busWellFramed hs hread
  · exact hs.finish hdone
  · exact ⟨rfl, fun _ hcut => nomatch hcut⟩

theorem perform_busWellFramed (x : HostAction) (s t : State) (hs : BusWellFramed s)
    (h : perform x s = .next t) : BusWellFramed t := by
  rcases perform_eq_next_bus h with ⟨a, b, hstep⟩ | ⟨hbus, htransport⟩
  · have hlogged : BusWellFramed { s with busLog := b :: s.busLog } := hs.congr rfl rfl
    exact frameStep_busWellFramed hlogged (busStep_eq_next hstep).2
  · exact hs.congr hbus htransport

theorem busWellFramed_reset : BusWellFramed State.reset := ⟨rfl, fun _ h => nomatch h⟩

/-! ## One bus action, phase by phase -/

/-- Another agent's action inside a transaction is an overlap. -/
theorem busStep_of_other {a o : Agent} {b : BusAction} {s : State} (ho : busOwner s.bus = some o) (hoa : o ≠ a) :
    busStep a b s = .fault .overlappingTransactions := by
  simp [busStep, ho, hoa]

/-- An action of the agent whose transaction is in flight, or on an idle bus, is logged and goes on in the frame. -/
theorem busStep_of_own {a : Agent} {b : BusAction} {s : State}
    (ho : busOwner s.bus = none ∨ busOwner s.bus = some a) :
    busStep a b s = frameStep a b { s with busLog := b :: s.busLog } := by
  rcases ho with ho | ho <;> simp [busStep, ho]

/-- A step with such an action waiting is the frame's next action, logged. -/
theorem step_bus_of_own {a : Agent} {b : BusAction} {s : State} {rest : List HostInput}
    (h : s.inputs = .action (.bus a b) :: rest) (ho : busOwner s.bus = none ∨ busOwner s.bus = some a) :
    step s = frameStep a b { s with inputs := rest, busLog := b :: s.busLog } :=
  (step_eq_perform h).trans (busStep_of_own (s := { s with inputs := rest }) ho)

/-- No step of a bus action touches the block (R28). -/
theorem step_bus_sameBlock {a : Agent} {b : BusAction} {s t : State} {rest : List HostInput}
    (h : s.inputs = .action (.bus a b) :: rest) (hstep : step s = .next t) : SameBlock s t := by
  rw [step_eq_perform h] at hstep
  exact SameBlock.trans (t := { s with inputs := rest }) ⟨rfl, rfl, rfl, rfl, rfl, rfl⟩ (busStep_sameBlock hstep)

/-- Chip-select going low inside a transaction is an overlap. -/
theorem frameStep_csLow_of_busy {a : Agent} {s : State} (h : s.bus ≠ .idle) :
    frameStep a .csLow s = .fault .overlappingTransactions := by
  cases hb : s.bus with
  | idle => exact absurd hb h
  | _ => simp [frameStep, hb]

theorem frameStep_csLow {a : Agent} {s : State} (h : s.bus = .idle) :
    frameStep a .csLow s = .next { s with bus := .selected a } := by
  simp [frameStep, h]

theorem frameStep_address {a o : Agent} {v : Byte} {s : State} (h : s.bus = .selected o) :
    frameStep a (.write v) s = addressPhase a v s := by
  simp [frameStep, h]

theorem frameStep_value {a o : Agent} {r : DevReg} {v : Byte} {s : State} (h : s.bus = .writing o r) :
    frameStep a (.write v) s = .next { writeEffect r v s with bus := .done a .written } := by
  simp [frameStep, h]

theorem frameStep_read {a o : Agent} {r : DevReg} {n : Nat} {d : Delivery} {s : State} (h : s.bus = .reading o r) :
    frameStep a (.read n d) s = readPhase a r n d s := by
  simp [frameStep, h]

theorem frameStep_csHigh {a o : Agent} {res : TransportResult} {s : State} (h : s.bus = .done o res) :
    frameStep a .csHigh s = .next { s with bus := .idle, transport := res } := by
  simp [frameStep, h]

/-- Only chip-select going high continues a frame whose data phase is over. -/
theorem frameStep_of_done {a o : Agent} {b : BusAction} {res : TransportResult} {s : State} (h : s.bus = .done o res)
    (hb : (∃ v, b = .write v) ∨ ∃ n d, b = .read n d) : frameStep a b s = .refused .malformedFrame := by
  rcases hb with ⟨v, rfl⟩ | ⟨n, d, rfl⟩ <;> simp [frameStep, h]

/-- Chip-select raised before the data phase is over cuts the frame. -/
theorem frameStep_csHigh_cut {a : Agent} {s : State} (hidle : s.bus ≠ .idle) (hdone : ∀ o res, s.bus ≠ .done o res) :
    frameStep a .csHigh s = .next { abortEffect s.bus s with bus := .idle, transport := .unavailable } := by
  cases hb : s.bus with
  | idle => exact absurd hb hidle
  | done o res => exact absurd hb (hdone o res)
  | _ => simp [frameStep, hb]

/-! ## The accesses of R36 -/

/-- The address byte of a register that is read starts its read. -/
theorem addressPhase_readAddressByte {r : DevReg} {n : Nat} (hr : r.readLength = some n) (a : Agent) (s : State) :
    addressPhase a (readAddressByte r) s = .next { s with bus := .reading a r } := by
  cases r <;> cases hr <;> rfl

/-- The address byte of a register that is written starts its write. -/
theorem addressPhase_writeAddressByte {r : DevReg} (hr : r.writable = true) (a : Agent) (s : State) :
    addressPhase a (writeAddressByte r) s = .next { s with bus := .writing a r } := by
  cases r <;> cases hr <;> rfl

/-- An address byte is its 7-bit address with the read/write bit above it (R31, R32). -/
theorem eq_addressByte (b : Byte) : (b.getLsbD 7 = true → b = (b.setWidth 7).setWidth 8 ||| 0x80) ∧
    (b.getLsbD 7 = false → b = (b.setWidth 7).setWidth 8) := by
  revert b; decide

theorem addr_of_ofAddr {x : BitVec 7} {r : DevReg} (h : DevReg.ofAddr x = some r) : r.addr = x := by
  simpa using List.find?_some h

/-- An address byte of a listed register is that of its read or that of its write, by bit 7 (R31, R32). -/
theorem addressByte_of_ofAddr {b : Byte} {r : DevReg} (h : DevReg.ofAddr (b.setWidth 7) = some r) :
    (b.getLsbD 7 = true → b = writeAddressByte r) ∧ (b.getLsbD 7 = false → b = readAddressByte r) := by
  rw [writeAddressByte, readAddressByte, addr_of_ofAddr h]
  exact eq_addressByte b

/-- The address bytes of R36's reads. -/
theorem readAddressByte_mem {r : DevReg} {n : Nat} (h : r.readLength = some n) :
    readAddressByte r ∈ [0x09#8, 0x0C#8, 0x0F#8] := by
  cases r with
  | cr0 | cr1 => nomatch h
  | coldJunction | thermocouple | faultStatus => decide

/-- The address bytes of R36's writes. -/
theorem writeAddressByte_mem {r : DevReg} (h : r.writable = true) : writeAddressByte r ∈ [0x80#8, 0x81#8] := by
  cases r with
  | cr0 | cr1 => decide
  | coldJunction | thermocouple | faultStatus => nomatch h

/-- The lengths of R36's reads. -/
theorem readLength_mem {r : DevReg} {n : Nat} (h : r.readLength = some n) :
    (r, n) ∈ [(DevReg.coldJunction, 3), (.thermocouple, 3), (.faultStatus, 1)] := by
  cases r <;> cases h <;> simp

/-- Every address byte but those of R36's accesses is refused. -/
theorem addressPhase_of_unlisted {b : Byte} (hread : b ∉ [0x09#8, 0x0C#8, 0x0F#8]) (hwrite : b ∉ [0x80#8, 0x81#8])
    (a : Agent) (s : State) : addressPhase a b s = .refused .deviceAccess := by
  unfold addressPhase
  split
  · rfl
  next r hr =>
    obtain ⟨hbw, hbr⟩ := addressByte_of_ofAddr hr
    split_ifs with h7 hw
    · exact absurd (hbw h7 ▸ writeAddressByte_mem hw) hwrite
    · rfl
    · split
      next n hn => exact absurd (hbr (by simpa using h7) ▸ readAddressByte_mem hn) hread
      next => rfl

/-- A read of another length than the register's is refused. -/
theorem readPhase_of_length_ne {r : DevReg} {n : Nat} (h : r.readLength ≠ some n) (a : Agent) (d : Delivery)
    (s : State) : readPhase a r n d s = .refused .deviceAccess := by
  simp [readPhase, h]

/-! ## What the device operations leave alone -/

/-- Finding a register's bytes only draws free values. -/
theorem deviceBytes_eq_draws (r : DevReg) (s : State) : ∃ k, (deviceBytes r s).2 = { s with draws := k } := by
  cases r <;> simp only [deviceBytes] <;> try split
  all_goals exact ⟨_, rfl⟩

theorem deviceBytes_device (r : DevReg) (s : State) : (deviceBytes r s).2.device = s.device := by
  obtain ⟨k, hk⟩ := deviceBytes_eq_draws r s
  rw [hk]

/-- What a read finds does not depend on the frame. -/
theorem deviceBytes_of_frame (r : DevReg) (s : State) (p : BusPhase) (log : List BusAction) :
    (deviceBytes r { s with bus := p, busLog := log }).1 = (deviceBytes r s).1 := by
  cases r <;> simp only [deviceBytes] <;> split <;> rfl

/-- A read's effect leaves the configuration registers as they were. -/
theorem readEffect_config (r : DevReg) (w : Bool) (s : State) :
    (readEffect r w s).device.cr0 = s.device.cr0 ∧ (readEffect r w s).device.cr1 = s.device.cr1 := by
  cases r <;> cases w <;> exact ⟨rfl, rfl⟩

/-- A write's effect neither depends on the frame nor touches it. -/
theorem writeEffect_of_frame (r : DevReg) (v : Byte) (s : State) (p : BusPhase) (log : List BusAction) :
    writeEffect r v { s with bus := p, busLog := log } = { writeEffect r v s with bus := p, busLog := log } := by
  unfold writeEffect
  repeat' split
  all_goals rfl

/-! ## Whole frames from an idle bus -/

/-- Chip-select going low on an idle bus starts a frame. -/
theorem busStep_csLow {a : Agent} {s : State} (h : s.bus = .idle) :
    busStep a .csLow s = .next { s with bus := .selected a, busLog := .csLow :: s.busLog } := by
  rw [busStep_of_own (.inl (by simp [h, busOwner])), frameStep_csLow]
  exact h

/-- The address phase of a frame. -/
theorem busStep_address {a : Agent} {v : Byte} {s : State} (h : s.bus = .selected a) :
    busStep a (.write v) s = addressPhase a v { s with busLog := .write v :: s.busLog } := by
  rw [busStep_of_own (.inr (by simp [h, busOwner])), frameStep_address (o := a)]
  exact h

/-- Chip-select going high after the data phase ends the transaction with its result. -/
theorem busStep_close {a : Agent} {res : TransportResult} {s : State} (h : s.bus = .done a res) :
    busStep a .csHigh s = .next { s with bus := .idle, transport := res, busLog := .csHigh :: s.busLog } := by
  rw [busStep_of_own (.inr (by simp [h, busOwner])), frameStep_csHigh]
  exact h

/-- The data phase of a read. -/
theorem busStep_read {a : Agent} {r : DevReg} {n : Nat} {d : Delivery} {s : State} (h : s.bus = .reading a r) :
    busStep a (.read n d) s = readPhase a r n d { s with busLog := .read n d :: s.busLog } := by
  rw [busStep_of_own (.inr (by simp [h, busOwner])), frameStep_read]
  exact h

/-- The data phase of a write. -/
theorem busStep_value {a : Agent} {r : DevReg} {v : Byte} {s : State} (h : s.bus = .writing a r) :
    busStep a (.write v) s =
      .next { writeEffect r v { s with busLog := .write v :: s.busLog } with bus := .done a .written } := by
  rw [busStep_of_own (.inr (by simp [h, busOwner])), frameStep_value (o := a)]
  exact h

/-- The first two actions of a read put the bus in its data phase (R31). -/
theorem performAll_openRead {a : Agent} {r : DevReg} {n : Nat} {s : State} (hbus : s.bus = .idle)
    (hr : r.readLength = some n) (xs : List HostAction) :
    performAll (.bus a .csLow :: .bus a (.write (readAddressByte r)) :: xs) s =
      performAll xs { s with bus := .reading a r, busLog := [.write (readAddressByte r), .csLow] ++ s.busLog } := by
  rw [performAll_cons, perform, busStep_csLow hbus, andThen_next, performAll_cons, perform, busStep_address rfl,
    addressPhase_readAddressByte hr, andThen_next]
  rfl

/-- The first two actions of a write put the bus in its data phase (R32). -/
theorem performAll_openWrite {a : Agent} {r : DevReg} {s : State} (hbus : s.bus = .idle)
    (hr : r.writable = true) (xs : List HostAction) :
    performAll (.bus a .csLow :: .bus a (.write (writeAddressByte r)) :: xs) s =
      performAll xs { s with bus := .writing a r, busLog := [.write (writeAddressByte r), .csLow] ++ s.busLog } := by
  rw [performAll_cons, perform, busStep_csLow hbus, andThen_next, performAll_cons, perform, busStep_address rfl,
    addressPhase_writeAddressByte hr, andThen_next]
  rfl

/-- A delivery of the whole register does to the rest of the state what a whole read of it does. -/
theorem readPhase_whole {r : DevReg} {n : Nat} (hr : r.readLength = some n) (a : Agent) (s : State) :
    readPhase a r n (.intact n) s = .next { readEffect r true (deviceBytes r s).2 with
      bus := .done a (.received ((deviceBytes r s).1.take n)) } := by
  simp [readPhase, hr]

/-- A whole read from an idle bus is its four actions, and draws free values at most (R31). -/
theorem performAll_devRead {r : DevReg} {n : Nat} {s : State} (hbus : s.bus = .idle) (hr : r.readLength = some n)
    (a : Agent) : ∃ k, performAll (devRead a r n (.intact n)) s = .next { readEffect r true { s with draws := k } with
      bus := .idle
      transport := .received ((deviceBytes r s).1.take n)
      busLog := [.csHigh, .read n (.intact n), .write (readAddressByte r), .csLow] ++ s.busLog } := by
  obtain ⟨k, hk⟩ := deviceBytes_eq_draws r { s with
    bus := .reading a r, busLog := [.read n (.intact n), .write (readAddressByte r), .csLow] ++ s.busLog }
  refine ⟨k, ?_⟩
  rw [devRead, performAll_openRead hbus hr, performAll_cons, perform, busStep_read rfl, readPhase_whole hr,
    andThen_next, performAll_cons, perform, busStep_close rfl, andThen_next, performAll_nil]
  simp only [List.cons_append, List.nil_append] at hk ⊢
  rw [hk, deviceBytes_of_frame]
  cases r <;> rfl

/-- A whole write from an idle bus is its four actions (R32). -/
theorem performAll_devWrite {r : DevReg} {s : State} (hbus : s.bus = .idle) (hr : r.writable = true) (a : Agent)
    (v : Byte) : performAll (devWrite a r v) s = .next { writeEffect r v s with
      bus := .idle
      transport := .written
      busLog := [.csHigh, .write v, .write (writeAddressByte r), .csLow] ++ s.busLog } := by
  rw [devWrite, performAll_openWrite hbus hr, performAll_cons, perform, busStep_value rfl,
    andThen_next, performAll_cons, perform, busStep_close rfl, andThen_next, performAll_nil]
  simp only [List.cons_append, List.nil_append, writeEffect_of_frame]

/-! ## What a driver's call leaves in the configuration registers -/

/-- The bus is idle, and CR0 and CR1 hold what they held or a byte the block can produce (R68, R78). -/
structure WritesBlockResults (s t : State) : Prop where
  bus : t.bus = .idle
  cr0 : t.device.cr0 = s.device.cr0 ∨ isCr0Byte t.device.cr0 = true
  cr1 : t.device.cr1 = s.device.cr1 ∨ isCr1Byte t.device.cr1 = true

/-- What is left from where the registers stood as before is left from before. -/
theorem WritesBlockResults.of_same_config {s u t : State} (hcr0 : u.device.cr0 = s.device.cr0)
    (hcr1 : u.device.cr1 = s.device.cr1) (h : WritesBlockResults u t) : WritesBlockResults s t :=
  ⟨h.bus, hcr0 ▸ h.cr0, hcr1 ▸ h.cr1⟩

/-- The low byte of a BUILD_CR0 result is one of R68's. -/
theorem isCr0Byte_of_okDataShape {data : Word} (h : okDataShape Opcode.buildCr0.code data = true) :
    isCr0Byte (data.setWidth 8) = true := by
  simp only [okDataShape, opcode_ofCode_code, Bool.or_eq_true, beq_iff_eq] at h
  rcases h with ((rfl | rfl) | rfl) | rfl <;> decide

/-- The low byte of a BUILD_CR1 result has bit 7 clear (R58). -/
theorem isCr1Byte_of_okDataShape {data : Word} (h : okDataShape Opcode.buildCr1.code data = true) :
    isCr1Byte (data.setWidth 8) = true := by
  simp only [okDataShape, opcode_ofCode_code, decide_eq_true_eq] at h
  have hbit : data.getLsbD 7 = false := Nat.testBit_lt_two_pow (i := 7) h
  simp only [isCr1Byte, BitVec.getLsbD_setWidth, hbit, Bool.and_false, Bool.not_false]

/-- A read that goes on from an idle bus leaves the bus idle and the configuration registers as they were. -/
theorem devRead_eq_next {a : Agent} {r : DevReg} {n : Nat} {d : Delivery} {s t : State} (hbus : s.bus = .idle)
    (hr : r.readLength = some n) (h : performAll (devRead a r n d) s = .next t) :
    t.bus = .idle ∧ t.device.cr0 = s.device.cr0 ∧ t.device.cr1 = s.device.cr1 := by
  rw [devRead, performAll_openRead hbus hr] at h
  obtain ⟨v, hread, h⟩ := andThen_eq_next h
  rw [perform, busStep_read rfl] at hread
  obtain ⟨-, bytes, u, w, -, hu, rfl⟩ := readPhase_eq_next hread
  rw [performAll_cons, perform, busStep_close rfl] at h
  cases h
  obtain ⟨hcr0, hcr1⟩ := readEffect_config r w u
  have hdevice : u.device = s.device := by
    rcases hu with rfl | rfl
    · rfl
    · exact deviceBytes_device r _
  exact ⟨rfl, hcr0.trans (by rw [hdevice]), hcr1.trans (by rw [hdevice])⟩

/-- A device write that goes on from an idle bus after a request writes the low byte of that request's result. -/
theorem devWriteResult_eq_next {a : Agent} {req : Word} {r : DevReg} {s t : State} (hbus : s.bus = .idle)
    (hr : r.writable = true) (h : performAll (.request a req :: devWriteResult a r) s = .next t) :
    ∃ data u, okDataShape (Fields.ofWord req).op data = true ∧ t.bus = .idle ∧
      t.device = (writeEffect r (data.setWidth 8) u).device ∧ u.device = s.device := by
  obtain ⟨st, data, hserve, hshape⟩ := serve_answerShape a req s
  rw [performAll_cons, perform, hserve, andThen_next, devWriteResult, performAll_openWrite (by exact hbus) hr] at h
  obtain ⟨v, hwrite, h⟩ := andThen_eq_next h
  obtain ⟨p, hp, hok, hwrite⟩ := busWriteResult_eq_next hwrite
  obtain rfl : (⟨a, st, data⟩ : Response) = p := by simpa [latestFor] using hp
  obtain rfl : st = .ok := hok
  rw [busStep_value rfl] at hwrite
  cases hwrite
  rw [performAll_cons, perform, busStep_close rfl] at h
  cases h
  exact ⟨data, _, hshape, rfl, rfl, rfl⟩

theorem writesBlockResults_of_writeCr0 {a : Agent} {oneShot f50 : Bool} {s t : State} (hbus : s.bus = .idle)
    (h : performAll (.request a (encode (.buildCr0 oneShot f50)) :: devWriteResult a .cr0) s = .next t) :
    WritesBlockResults s t := by
  obtain ⟨data, u, hshape, ht, hdevice, hu⟩ := devWriteResult_eq_next hbus rfl h
  rw [encode_op] at hshape
  obtain ⟨hcr0, hcr1⟩ := writeEffect_cr0_registers (data.setWidth 8) u
  rw [← hdevice] at hcr0 hcr1
  exact ⟨ht, .inr (hcr0 ▸ isCr0Byte_of_okDataShape hshape), .inl (hu ▸ hcr1)⟩

theorem writesBlockResults_of_writeCr1 {a : Agent} {avg : Byte} {tc : BitVec 4} {s t : State} (hbus : s.bus = .idle)
    (h : performAll (.request a (encode (.buildCr1 avg tc)) :: devWriteResult a .cr1) s = .next t) :
    WritesBlockResults s t := by
  obtain ⟨data, u, hshape, ht, hdevice, hu⟩ := devWriteResult_eq_next hbus rfl h
  rw [encode_op] at hshape
  refine ⟨ht, .inl ?_, .inr ?_⟩
  · rw [hdevice, ← hu]; rfl
  · rw [hdevice]; exact isCr1Byte_of_okDataShape hshape

/-- A read and the decode of what it returned write nothing. -/
theorem writesBlockResults_of_read {a : Agent} {r : DevReg} {n : Nat} {d : Delivery} {o : Opcode} {s t : State}
    (hbus : s.bus = .idle) (hr : r.readLength = some n)
    (h : performAll (devRead a r n d ++ [.requestReceived a o]) s = .next t) : WritesBlockResults s t := by
  rw [performAll_append] at h
  obtain ⟨u, hread, h⟩ := andThen_eq_next h
  obtain ⟨hu, hcr0, hcr1⟩ := devRead_eq_next hbus hr hread
  obtain ⟨v, hdecode, hv⟩ := andThen_eq_next h
  cases hv
  obtain ⟨bytes, -, hserve⟩ := serveReceived_eq_next hdecode
  rw [serve_eq_answer] at hserve
  cases hserve
  exact ⟨hu, .inl hcr0, .inl hcr1⟩

/-- The plan of every call writes block results only (R44). -/
theorem callPlan_writesBlockResults {a : Agent} {c : DriverCall} {s t : State} (hbus : s.bus = .idle)
    (h : performAll (callPlan a c) s = .next t) : WritesBlockResults s t := by
  cases c with
  | construct avg tc => exact writesBlockResults_of_writeCr1 hbus h
  | rewriteCr1 avg tc => exact writesBlockResults_of_writeCr1 hbus h
  | requestOneShot f50 => exact writesBlockResults_of_writeCr0 hbus h
  | setupDrdy f50 d =>
    rw [callPlan, performAll_append] at h
    obtain ⟨u, hread, hwrite⟩ := andThen_eq_next h
    obtain ⟨hu, hcr0, hcr1⟩ := devRead_eq_next hbus rfl hread
    exact (writesBlockResults_of_writeCr0 hu hwrite).of_same_config hcr0 hcr1
  | readColdJunction d => exact writesBlockResults_of_read hbus rfl h
  | readThermocouple d => exact writesBlockResults_of_read hbus rfl h
  | readFault d => exact writesBlockResults_of_read hbus rfl h

/-- A call that goes on is its plan, and then the driver's handle changes. -/
theorem runCall_eq_next {a : Agent} {c : DriverCall} {s t : State} (h : runCall a c s = .next t) :
    admission c s = none ∧ ∃ u, performAll (callPlan a c) s = .next u ∧
      t = { u with driver := driverAfter c u.driver } := by
  unfold runCall at h
  split at h
  · cases h
  next hadmitted =>
    obtain ⟨u, hu, ht⟩ := andThen_eq_next h
    cases ht
    exact ⟨hadmitted, u, hu, rfl⟩

end Sys2Proof.Machine

namespace Sys2Proof.Proofs

open Sys2Proof Sys2Proof.Machine

/-- Settles O50: every action keeps the invariant, which looks neither at the waiting inputs nor at the driver's
handle. -/
theorem stepKeepsTheBusWellFramed : Obligations.StepKeepsTheBusWellFramed := fun _ _ =>
  step_induct perform_busWellFramed (fun _ _ hs => hs.congr rfl rfl) (fun _ _ hs => hs.congr rfl rfl)

/-- Settles O42: by induction over the requests, each answered by `serve_eq_answer`. -/
theorem requestSequenceIsAnsweredInOrder : Obligations.RequestSequenceIsAnsweredInOrder := by
  intro rs rest
  induction rs with
  | nil => exact fun s h => ⟨s, rfl, h, rfl, rfl, rfl, rfl, rfl, rfl, rfl, rfl⟩
  | cons p rs ih =>
    intro s h
    have hstep := (step_eq_perform h).trans (serve_eq_answer p.1 p.2 _)
    obtain ⟨t, hrun, hinputs, hreturned, hframe⟩ := ih (respond (Fields.ofWord p.2).op (answer p.2).1 (answer p.2).2
      { s with inputs := rs.map (fun p => HostInput.action (.request p.1 p.2)) ++ rest, issuer := p.1 }) rfl
    refine ⟨t, (core_run_succ hstep _).trans hrun, hinputs, ?_, hframe⟩
    simpa using hreturned

/-- Settles O44: the owner test for another agent's action, the frame automaton for the agent's own. -/
theorem overlappingTransactionsFault : Obligations.OverlappingTransactionsFault := by
  intro s a o b rest h ho hoverlap
  by_cases hoa : o = a
  · subst hoa
    obtain rfl := hoverlap.resolve_left (by simp)
    have hbusy : s.bus ≠ .idle := fun hidle => by simp [hidle, busOwner] at ho
    exact (step_bus_of_own h (.inr ho)).trans (frameStep_csLow_of_busy hbusy)
  · exact (step_eq_perform h).trans (busStep_of_other (s := { s with inputs := rest }) ho hoa)

/-- Settles O46: both writes are `performAll_devWrite`, whose effect on CR0 and CR1 is `writeEffect`. -/
theorem devWriteWritesTheRegister : Obligations.DevWriteWritesTheRegister := by
  intro s a v hbus
  obtain ⟨hcr0, hcr1⟩ := writeEffect_cr0_registers v s
  refine ⟨⟨_, performAll_devWrite hbus rfl a v, rfl, hcr0, hcr1, rfl, ?_⟩,
    ⟨_, performAll_devWrite hbus rfl a v, rfl, rfl, rfl, rfl, ?_⟩⟩
  · exact (writeEffect_sameBlock .cr0 v s).trans ⟨rfl, rfl, rfl, rfl, rfl, rfl⟩
  · exact (writeEffect_sameBlock .cr1 v s).trans ⟨rfl, rfl, rfl, rfl, rfl, rfl⟩

/-- Settles O47: the address phase, the read's length, and the end of the data phase. -/
theorem unlistedDeviceAccessIsRefused : Obligations.UnlistedDeviceAccessIsRefused := by
  refine ⟨fun s a b rest h hbus hb => ?_, fun s a r n d rest h hbus hrn => ?_, fun s a b result rest h hbus hb => ?_⟩
    <;> rw [step_bus_of_own h (.inr (by simp [hbus, busOwner]))]
  · rw [frameStep_address (o := a)]
    · exact addressPhase_of_unlisted (fun h => hb (List.mem_append_left [0x80#8, 0x81#8] h))
        (fun h => hb (List.mem_append_right [0x09#8, 0x0C#8, 0x0F#8] h)) a _
    · exact hbus
  · rw [frameStep_read (o := a) (r := r)]
    · exact readPhase_of_length_ne (fun hr => hrn (readLength_mem hr)) a d _
    · exact hbus
  · exact frameStep_of_done hbus hb

/-- Settles O48: the effects of the three whole reads. -/
theorem drdyAfterADeviceRead : Obligations.DrdyAfterADeviceRead := by
  intro s a hbus
  obtain ⟨_, htc⟩ := performAll_devRead (r := .thermocouple) hbus rfl a
  obtain ⟨k, hcj⟩ := performAll_devRead (r := .coldJunction) hbus rfl a
  obtain ⟨_, hfault⟩ := performAll_devRead (r := .faultStatus) hbus rfl a
  exact ⟨⟨_, htc, rfl, rfl⟩, ⟨_, k, hcj, rfl, rfl⟩, ⟨_, hfault, rfl, rfl⟩⟩

/-- Settles O52: the step is the call's plan, which writes block results only. -/
theorem driverCallsWriteOnlyBlockResults : Obligations.DriverCallsWriteOnlyBlockResults := by
  intro s t a c rest h hbus hstep
  rw [step, h] at hstep
  obtain ⟨-, u, hplan, rfl⟩ := runCall_eq_next hstep
  obtain ⟨hidle, hcr0, hcr1⟩ := callPlan_writesBlockResults (s := { s with inputs := rest }) hbus hplan
  exact ⟨hidle, hcr0, hcr1⟩

/-- Settles O45: the three whole reads and the bytes each finds. -/
theorem devReadReturnsTheRegisterBytes : Obligations.DevReadReturnsTheRegisterBytes := by
  intro s a hbus
  refine ⟨fun hsettled => ?_, fun hsettled => ?_, ?_⟩
  · obtain ⟨_, hcj⟩ := performAll_devRead (r := .coldJunction) hbus rfl a
    exact ⟨_, hcj, rfl, by simp [deviceBytes, hsettled, Bytes3.toList], rfl⟩
  · obtain ⟨_, htc⟩ := performAll_devRead (r := .thermocouple) hbus rfl a
    exact ⟨_, htc, rfl, by simp [deviceBytes, hsettled, Bytes3.toList], rfl⟩
  · obtain ⟨_, hfault⟩ := performAll_devRead (r := .faultStatus) hbus rfl a
    exact ⟨_, hfault, rfl, rfl, rfl⟩

/-- Settles O49. -/
theorem cutFrameLeavesTheBusIdle : Obligations.CutFrameLeavesTheBusIdle := by
  intro s a r rest h hbus
  have ho : busOwner s.bus = some a := by rcases hbus with hbus | hbus | hbus <;> simp [hbus, busOwner]
  have hidle : s.bus ≠ .idle := fun hidle => by simp [hidle, busOwner] at ho
  have hdone : ∀ o res, s.bus ≠ .done o res := fun o res hdone => by simp [hdone] at hbus
  have hstep := (step_bus_of_own h (.inr ho)).trans (frameStep_csHigh_cut hidle hdone)
  exact ⟨_, hstep, rfl, rfl, step_bus_sameBlock h hstep⟩

/-- Settles O51. -/
theorem resetStateIsWellFramed : Obligations.ResetStateIsWellFramed := busWellFramed_reset

end Sys2Proof.Proofs

/-! # The encoding (30_encoding.md): lemmas and proofs -/

namespace Sys2Proof.Machine

/-! ## Words and their fields -/

/-- A word is made up of its own fields (R46). -/
@[simp] theorem toWord_ofWord (req : Word) : (Fields.ofWord req).toWord = req := by
  rw [Fields.toWord, Fields.ofWord]
  repeat rw [BitVec.extractLsb'_append_extractLsb'_eq_extractLsb' (by rfl)]
  exact BitVec.extractLsb'_eq_self

/-- Two concatenated bit vectors as a number. -/
theorem toNat_append_eq_add {v w : Nat} (a : BitVec v) (b : BitVec w) :
    (a ++ b).toNat = a.toNat * 2 ^ w + b.toNat := by
  rw [BitVec.toNat_append, ← Nat.shiftLeft_add_eq_or_of_lt b.isLt, Nat.shiftLeft_eq]

/-- The fields stand at their bit positions (R46). -/
theorem toWord_toNat (f : Fields) : f.toWord.toNat = f.op.toNat * 2 ^ 28 + f.cnt.toNat * 2 ^ 26 +
    f.rsv.toNat * 2 ^ 24 + f.b0.toNat * 2 ^ 16 + f.b1.toNat * 2 ^ 8 + f.b2.toNat := by
  simp only [Fields.toWord, toNat_append_eq_add]
  ring

/-! ## The decoder and the rows of the opcode table -/

/-- A word that matches the row of an operation decodes to it (R55). -/
theorem decode_of_hits {o : Opcode} {req : Word} (h : (rowOf o).hits req = true) :
    decode req = .instr (o.operands (Fields.ofWord req)) := by
  obtain ⟨hop, hcnt, hres⟩ := (hits_rowOf o req).1 h
  have hclass : classify req = .op o := by simp [classify, hop, hcnt, hres]
  rw [decode, hclass]

/-- A word that decodes matches the row of its instruction's operation, and holds its operands (R55). -/
theorem hits_of_decode {req : Word} {i : Instr} (h : decode req = .instr i) :
    (rowOf i.opcode).hits req = true ∧ i.opcode.operands (Fields.ofWord req) = i := by
  rcases decode_cases req with ⟨-, hdec⟩ | ⟨o, hop, ⟨-, hdec⟩ | ⟨-, -, hdec⟩ | ⟨hcnt, hres, hdec⟩⟩
  · simp [hdec] at h
  · simp [hdec] at h
  · simp [hdec] at h
  · obtain rfl := Decoded.instr.inj (hdec.symm.trans h)
    rw [operands_opcode]
    exact ⟨(hits_rowOf o req).2 ⟨opcode_ofCode_eq_some.1 hop, hcnt, hres⟩, rfl⟩

/-- Two operations' rows match one word only if the operations are the same: they differ in OP. -/
theorem opcode_eq_of_hits {o o' : Opcode} {req : Word} (h : (rowOf o).hits req = true)
    (h' : (rowOf o').hits req = true) : o = o' := by
  have hcode : o.code = o'.code := ((hits_rowOf o req).1 h).1.symm.trans ((hits_rowOf o' req).1 h').1
  rw [← Option.some_inj, ← opcode_ofCode_code, hcode, opcode_ofCode_code]

/-- The rows a word matches are the one of its operation. -/
theorem filter_hits {o : Opcode} {req : Word} (h : (rowOf o).hits req = true) :
    opcodeTable.filter (fun r => r.hits req) = [rowOf o] := by
  have hhits : ∀ r ∈ opcodeTable, r.hits req = (r.opcode == o) := fun r hr => by
    rw [mem_opcodeTable.1 hr, Bool.eq_iff_iff, beq_iff_eq]
    exact ⟨fun hr => opcode_eq_of_hits hr h, fun hr => hr ▸ h⟩
  rw [List.filter_congr hhits]
  cases o <;> rfl

/-- Serving a word that decodes runs its instruction for the issuer (R55). -/
theorem serve_of_decode {req : Word} {i : Instr} (h : decode req = .instr i) (a : Agent) (s : State) :
    serve a req s = exec i { s with issuer := a } := by
  simp only [serve, h]

/-! ## The encoder -/

/-- An instruction's word matches the row of its operation, from the encoding of each constructor. -/
theorem encodingRow (i : Instr) : Laws.EncodingRow.Statement i := by
  cases i with
  | buildCr0 oneShot f50 => exact Laws.EncodingRow.buildCr0 oneShot f50
  | buildCr1 avgSel tcType => exact Laws.EncodingRow.buildCr1 avgSel tcType
  | decodeFault sr => exact Laws.EncodingRow.decodeFault sr
  | decodeCj offset msb lsb => exact Laws.EncodingRow.decodeCj offset msb lsb
  | decodeTc high mid low => exact Laws.EncodingRow.decodeTc high mid low

theorem hits_encode (i : Instr) : (rowOf i.opcode).hits (encode i) = true := by
  obtain ⟨r, hr, hopcode, hhits⟩ := encodingRow i
  rwa [mem_opcodeTable.1 hr, hopcode] at hhits

/-- The encoder puts each operand where the decoder takes it from (R49 to R53). -/
theorem operands_encode (i : Instr) : i.opcode.operands (Fields.ofWord (encode i)) = i := by
  cases i with
  | buildCr0 oneShot f50 => cases oneShot <;> cases f50 <;> rfl
  | buildCr1 avgSel tcType =>
    calc Opcode.buildCr1.operands (Fields.ofWord (encode (.buildCr1 avgSel tcType)))
      _ = .buildCr1 avgSel ((0#4 ++ tcType).extractLsb' 0 4) :=
        congrArg Opcode.buildCr1.operands (ofWord_toWord _)
      _ = .buildCr1 avgSel tcType := by rw [BitVec.extractLsb'_append_eq_right]
  | decodeFault sr => exact congrArg Opcode.decodeFault.operands (ofWord_toWord _)
  | decodeCj offset msb lsb => exact congrArg Opcode.decodeCj.operands (ofWord_toWord _)
  | decodeTc high mid low => exact congrArg Opcode.decodeTc.operands (ofWord_toWord _)

/-- The decoder undoes the encoder: an encoding matches its operation's row, and its operands are read back. -/
@[simp] theorem decode_encode (i : Instr) : decode (encode i) = .instr i := by
  rw [decode_of_hits (hits_encode i), operands_encode]

/-- The reserved bits of an operation's request, field by field (R54). -/
def reservedFields : Opcode → Fields
  | .buildCr0 => ⟨0, 0, 3, 0xFC, 0xFF, 0xFF⟩
  | .buildCr1 => ⟨0, 0, 3, 0, 0xF0, 0xFF⟩
  | .decodeFault => ⟨0, 0, 3, 0, 0xFF, 0xFF⟩
  | .decodeCj => ⟨0, 0, 3, 0, 0, 0⟩
  | .decodeTc => ⟨0, 0, 3, 0, 0, 0⟩

theorem reservedMask_eq_toWord (o : Opcode) : o.reservedMask = (reservedFields o).toWord := by
  cases o <;> rfl

/-- A word with no reserved bit set has none set in any field (R54). -/
theorem fields_of_and_reservedMask {o : Opcode} {f : Fields} (h : f.toWord &&& o.reservedMask = 0#32) :
    f.rsv &&& (reservedFields o).rsv = 0 ∧ f.b0 &&& (reservedFields o).b0 = 0 ∧
      f.b1 &&& (reservedFields o).b1 = 0 ∧ f.b2 &&& (reservedFields o).b2 = 0 := by
  rw [reservedMask_eq_toWord, Laws.fields_and] at h
  have hfields := congrArg Fields.ofWord h
  rw [ofWord_toWord] at hfields
  exact ⟨congrArg Fields.rsv hfields, congrArg Fields.b0 hfields, congrArg Fields.b1 hfields,
    congrArg Fields.b2 hfields⟩

/-- The two operand bits of BUILD_CR0 are all of B0 when its reserved bits are 0. -/
theorem cr0Operands_eq (b : Byte) (h : b &&& 0xFC#8 = 0#8) :
    0#6 ++ BitVec.ofBool (b.getLsbD 1) ++ BitVec.ofBool (b.getLsbD 0) = b := by
  revert b; decide

/-- The type code of BUILD_CR1 is all of B1 when its reserved bits are 0. -/
theorem cr1Type_eq (b : Byte) (h : b &&& 0xF0#8 = 0#8) : 0#4 ++ b.extractLsb' 0 4 = b := by
  revert b; decide

/-- Encoding the operands taken from fields puts the fields together again when the fields pass the three checks. -/
theorem encode_operands {o : Opcode} {f : Fields} (hop : f.op = o.code) (hcnt : f.cnt = o.requiredCnt)
    (hres : f.toWord &&& o.reservedMask = 0#32) : encode (o.operands f) = f.toWord := by
  obtain ⟨hrsv, h0, h1, h2⟩ := fields_of_and_reservedMask hres
  obtain ⟨op, cnt, rsv, b0, b1, b2⟩ := f
  dsimp only at hop hcnt hrsv h0 h1 h2
  have hrsv : rsv = 0 := by rw [← hrsv]; cases o <;> exact BitVec.and_allOnes.symm
  subst hop hcnt hrsv
  have hall : ∀ b : Byte, b &&& 0xFF#8 = 0 → b = 0 := fun b hb => by rw [← hb]; exact BitVec.and_allOnes.symm
  cases o with
  | buildCr0 => rw [hall b1 h1, hall b2 h2, Opcode.operands, encode, cr0Operands_eq b0 h0]; rfl
  | buildCr1 => rw [hall b2 h2, Opcode.operands, encode, cr1Type_eq b1 h1]; rfl
  | decodeFault => rw [hall b1 h1, hall b2 h2]; rfl
  | decodeCj => rfl
  | decodeTc => rfl

/-- A word that matches an operation's row is the encoding of the operation with the word's operands (R54, R55). -/
theorem encode_of_hits {o : Opcode} {req : Word} (h : (rowOf o).hits req = true) :
    encode (o.operands (Fields.ofWord req)) = req := by
  obtain ⟨hop, hcnt, hres⟩ := (hits_rowOf o req).1 h
  have hword := encode_operands hop hcnt ((toWord_ofWord req).symm ▸ hres)
  rwa [toWord_ofWord] at hword

/-! ## Encodings as numbers -/

/-- The word of a request: the match of the operation's row, and the operand bytes at their bit positions. -/
theorem request_toWord (o : Opcode) (b0 b1 b2 : Byte) : (o.request b0 b1 b2).toWord =
    BitVec.ofNat 32 ((rowOf o).matchBits.toNat + b0.toNat * 2 ^ 16 + b1.toNat * 2 ^ 8 + b2.toNat) := by
  have hmatch : (rowOf o).matchBits.toNat = o.code.toNat * 2 ^ 28 + o.requiredCnt.toNat * 2 ^ 26 := by
    cases o <;> rfl
  rw [hmatch, ← BitVec.setWidth_eq (o.request b0 b1 b2).toWord, ← BitVec.ofNat_toNat, toWord_toNat]
  simp [Opcode.request]

theorem encode_buildCr0 (oneShot f50 : Bool) : encode (.buildCr0 oneShot f50) =
    BitVec.ofNat 32 (0x14000000 + oneShot.toNat * 2 ^ 17 + f50.toNat * 2 ^ 16) := by
  cases oneShot <;> cases f50 <;> rfl

theorem encode_buildCr1 (avgSel : BitVec 8) (tcType : BitVec 4) : encode (.buildCr1 avgSel tcType) =
    BitVec.ofNat 32 (0x28000000 + avgSel.toNat * 2 ^ 16 + tcType.toNat * 2 ^ 8) := by
  have hb1 : (0#4 ++ tcType).toNat = tcType.toNat := by rw [toNat_append_eq_add]; simp
  rw [encode, request_toWord, hb1]; rfl

theorem encode_decodeFault (sr : Byte) :
    encode (.decodeFault sr) = BitVec.ofNat 32 (0x34000000 + sr.toNat * 2 ^ 16) := by
  rw [encode, request_toWord]; rfl

theorem encode_decodeCj (offset msb lsb : Byte) : encode (.decodeCj offset msb lsb) =
    BitVec.ofNat 32 (0x4C000000 + offset.toNat * 2 ^ 16 + msb.toNat * 2 ^ 8 + lsb.toNat) := by
  rw [encode, request_toWord]; rfl

theorem encode_decodeTc (high mid low : Byte) : encode (.decodeTc high mid low) =
    BitVec.ofNat 32 (0x5C000000 + high.toNat * 2 ^ 16 + mid.toNat * 2 ^ 8 + low.toNat) := by
  rw [encode, request_toWord]; rfl

/-! ## Assembler lines -/

@[simp] theorem wellFormed_bit (n : Nat) : WellFormed.bit n = decide (n < 2) := rfl
@[simp] theorem wellFormed_byte (n : Nat) : WellFormed.byte n = decide (n < 256) := rfl
@[simp] theorem wellFormed_letter (t : ThermocoupleType) : WellFormed.typeArg (.letter t) = true := rfl
@[simp] theorem wellFormed_number (n : Nat) : WellFormed.typeArg (.number n) = decide (n < 16) := rfl
@[simp] theorem wellFormed_word (n : Nat) : WellFormed.word n = decide (n < 2 ^ 32) := rfl

/-- A line in range that spells an instruction assembles to its encoding, which decodes to the instruction (R66). -/
theorem assemble_and_decode {l : AsmLine} {i : Instr} {w : Word} (hwf : l.wf = true) (hi : l.instr = some i)
    (hw : encode i = w) : l.assemble = some w ∧ decode w = .instr i := by
  subst hw
  exact ⟨assemble_eq_encode hwf hi, decode_encode i⟩

theorem assemble_eq_none {l : AsmLine} (h : l.wf = false) : l.assemble = none := by
  simp [AsmLine.assemble, h]

/-- The number written for a byte argument in range is the operand's value. -/
theorem toNat_ofNat_byte {n : Nat} (h : n < 256) : (BitVec.ofNat 8 n).toNat = n := Nat.mod_eq_of_lt h

/-- The number written for a type in range is the type code's value. -/
theorem toNat_ofNat_typeCode {n : Nat} (h : n < 16) : (BitVec.ofNat 4 n).toNat = n := Nat.mod_eq_of_lt h

/-- The number written for a Boolean argument in range is the operand bit. -/
theorem toNat_beq_one {n : Nat} (h : n < 2) : (n == 1).toNat = n := by
  interval_cases n <;> rfl

/-! ## The type code in a CR1 byte -/

/-- BUILD_CR1 packs the type code unchanged into the low four bits (R59, R71). -/
theorem cr1Byte_typeField (avgSel : BitVec 8) (tcType : BitVec 4) :
    (zext32 (cr1Byte avgSel tcType)).extractLsb' 0 4 = tcType := by
  have hpack : tcType.toNat ||| level avgSel.toNat <<< 4 = level avgSel.toNat * 2 ^ 4 + tcType.toNat := by
    rw [Nat.or_comm, ← Nat.shiftLeft_add_eq_or_of_lt tcType.isLt, Nat.shiftLeft_eq]
  have htype : tcType.toNat < 16 := tcType.isLt
  apply BitVec.eq_of_toNat_eq
  rw [BitVec.extractLsb'_toNat, zext32, BitVec.toNat_setWidth, cr1Byte, BitVec.toNat_ofNat, hpack]
  omega

end Sys2Proof.Machine

namespace Sys2Proof.Proofs

open Sys2Proof Sys2Proof.Machine

/-- Settles O11. -/
theorem decodeOfEncode : Obligations.DecodeOfEncode := decode_encode

/-- Settles O10. -/
theorem requestFieldsMakeUpTheWord : Obligations.RequestFieldsMakeUpTheWord :=
  ⟨toWord_ofWord, ofWord_toWord, toWord_toNat⟩

/-- Settles O12: a word that decodes matches a row, and there its operands make up the word. -/
theorem encodeOfDecode : Obligations.EncodeOfDecode := by
  intro req i h
  obtain ⟨hhits, hi⟩ := hits_of_decode h
  rw [← hi]
  exact encode_of_hits hhits

/-- Settles O13: decoding is matching a row, and no two rows match one word. -/
theorem decodedWordsMatchExactlyOneTableRow : Obligations.DecodedWordsMatchExactlyOneTableRow := by
  refine fun req => ⟨⟨fun ⟨i, hdec⟩ => ?_, fun ⟨r, hr, hmatch⟩ => ?_⟩, fun i hdec => ?_⟩
  · exact ⟨rowOf i.opcode, mem_opcodeTable.2 rfl, beq_iff_eq.1 (hits_of_decode hdec).1⟩
  · rw [mem_opcodeTable.1 hr] at hmatch
    exact ⟨_, decode_of_hits (beq_iff_eq.2 hmatch)⟩
  · rw [filter_hits (hits_of_decode hdec).1]
    rfl

/-- Settles O20: each line in range spells an instruction whose encoding is the word with its arguments in their
fields; a line out of range is not well formed. -/
theorem assembledLinesDecode : Obligations.AssembledLinesDecode := by
  refine ⟨fun o f ho hf => ?_, fun avg n havg hn => ?_, fun avg n letter havg hletter => ?_, fun b hb => ?_,
    fun o m l ho hm hl => ?_, fun h m l hh hm hl => ?_, fun w hw => ?_, fun x y z => ?_⟩
  · refine assemble_and_decode (by simp [AsmLine.wf, ho, hf]) rfl ?_
    rw [encode_buildCr0, toNat_beq_one ho, toNat_beq_one hf]
  · refine assemble_and_decode (by simp [AsmLine.wf, havg, hn]) rfl ?_
    rw [encode_buildCr1, toNat_ofNat_byte havg, toNat_ofNat_typeCode hn]
  · have hcode : letter.code.toNat = n := by
      revert hletter
      cases letter <;> simp [ThermocoupleType.code] <;> omega
    refine (assemble_and_decode (by simp [AsmLine.wf, havg]) rfl ?_).1
    rw [encode_buildCr1, toNat_ofNat_byte havg, TypeArg.code, hcode]
  · refine assemble_and_decode (by simp [AsmLine.wf, hb]) rfl ?_
    rw [encode_decodeFault, toNat_ofNat_byte hb]
  · refine assemble_and_decode (by simp [AsmLine.wf, ho, hm, hl]) rfl ?_
    rw [encode_decodeCj, toNat_ofNat_byte ho, toNat_ofNat_byte hm, toNat_ofNat_byte hl]
  · refine assemble_and_decode (by simp [AsmLine.wf, hh, hm, hl]) rfl ?_
    rw [encode_decodeTc, toNat_ofNat_byte hh, toNat_ofNat_byte hm, toNat_ofNat_byte hl]
  · exact if_pos (decide_eq_true hw)
  · refine ⟨fun h => ?_, fun h => ?_, fun h letter => ?_, fun h => ?_, fun h => ⟨?_, ?_⟩, fun h => ?_⟩
    · exact assemble_eq_none (by simp [AsmLine.wf]; omega)
    · exact assemble_eq_none (by simp [AsmLine.wf]; omega)
    · exact assemble_eq_none (by simp [AsmLine.wf, h])
    · exact assemble_eq_none (by simp [AsmLine.wf, h])
    · exact assemble_eq_none (by simp [AsmLine.wf]; omega)
    · exact assemble_eq_none (by simp [AsmLine.wf]; omega)
    · exact assemble_eq_none (by simpa [AsmLine.wf] using h)

/-- Settles O21. -/
theorem thermocoupleTypeCodes : Obligations.ThermocoupleTypeCodes := by
  refine ⟨rfl, by decide, fun t => ?_, fun avgSel c s => ?_⟩
  · cases t <;> rfl
  · exact congrArg some (cr1Byte_typeField avgSel c)

/-- Settles O41: the step serves the request, and the block serves it as the table and the closed forms say. -/
theorem stepRefinesTheClosedFormAnswer : Obligations.StepRefinesTheClosedFormAnswer :=
  fun _ a req _ h => (step_eq_perform h).trans (serve_eq_answer a req _)

/-- Settles O14: each word is the encoding of its instruction. -/
theorem specEncodingsDecode : Obligations.SpecEncodingsDecode :=
  ⟨decode_encode (.buildCr0 true false), decode_encode (.buildCr1 12 7), decode_encode (.decodeFault 0x5A),
    decode_encode (.decodeCj 0x10 0x19 0x03), decode_encode (.decodeTc 0xFE 0x70 0x21)⟩

/-- Settles O19: the step serves the request, and serving a word that decodes is running its instruction. -/
theorem stepRunsTheDecodedInstruction : Obligations.StepRunsTheDecodedInstruction := by
  intro s a req rest i h hdec
  rw [step_eq_perform h]
  exact serve_of_decode hdec a _

end Sys2Proof.Proofs

/-! # The register codec (40_codec.md): lemmas and proofs -/

namespace Sys2Proof.Machine

/-! ## Words with a defined OP -/

/-- A word with an operation's OP is LENGTH, RESERVED_FIELD or the operation, by its CNT and its reserved bits
(R55, R100). -/
theorem decode_of_op {o : Opcode} {req : Word} (hop : (Fields.ofWord req).op = o.code) :
    ((Fields.ofWord req).cnt ≠ o.requiredCnt → decode req = .rejected .length) ∧
    ((Fields.ofWord req).cnt = o.requiredCnt → req &&& o.reservedMask ≠ 0#32 →
      decode req = .rejected .reservedField) ∧
    ((Fields.ofWord req).cnt = o.requiredCnt → req &&& o.reservedMask = 0#32 →
      decode req = .instr (o.operands (Fields.ofWord req))) := by
  refine ⟨fun hcnt => ?_, fun hcnt hres => ?_, fun hcnt hres => ?_⟩
  · simp [decode, classify, hop, hcnt]
  · simp [decode, classify, hop, hcnt, hres]
  · exact decode_of_hits ((hits_rowOf o req).2 ⟨hop, hcnt, hres⟩)

/-- The operand bits of BUILD_CR0 are bits 17 and 16 of the word (R49). -/
theorem operands_buildCr0 (req : Word) :
    Opcode.buildCr0.operands (Fields.ofWord req) = .buildCr0 (req.getLsbD 17) (req.getLsbD 16) := by
  simp [Opcode.operands, Fields.ofWord]

/-- The operands of BUILD_CR1 are bits 23:16 and 11:8 of the word (R50). -/
theorem operands_buildCr1 (req : Word) : Opcode.buildCr1.operands (Fields.ofWord req) =
    .buildCr1 (req.extractLsb' 16 8) (req.extractLsb' 8 4) := by
  have htype : (req.extractLsb' 8 8).extractLsb' 0 4 = req.extractLsb' 8 4 := by
    refine BitVec.eq_of_getLsbD_eq fun n hn => ?_
    have hn8 : n < 8 := by omega
    simp [hn8]
  exact congrArg (Instr.buildCr1 _) htype

/-! ## The averaging level -/

/-- A count between two powers of two has the level of the lower one (R69, R73). -/
theorem level_eq_of_le_of_lt {a k : Nat} (hle : 2 ^ k ≤ a) (hlt : a < 2 ^ (k + 1)) : level a = k := by
  have hne : a ≠ 0 := ((Nat.two_pow_pos k).trans_le hle).ne'
  rw [level_eq_log2]
  exact (Nat.log2_eq_iff hne).2 ⟨hle, hlt⟩

/-! ## The CR0 and CR1 bytes as data words -/

theorem resultData_buildCr0 (oneShot f50 : Bool) (s : State) :
    resultData (.buildCr0 oneShot f50) s = some (zext32 (cr0Byte oneShot f50)) := rfl

theorem resultData_buildCr1 (avgSel : BitVec 8) (tcType : BitVec 4) (s : State) :
    resultData (.buildCr1 avgSel tcType) s = some (zext32 (cr1Byte avgSel tcType)) := rfl

/-- The CR1 byte as the OR of the type and the shifted level, in bytes (R71). -/
theorem cr1Byte_eq_or (avgSel : BitVec 8) (tcType : BitVec 4) :
    cr1Byte avgSel tcType = tcType.setWidth 8 ||| BitVec.ofNat 8 (level avgSel.toNat) <<< 4 := by
  rw [cr1Byte, BitVec.ofNat_or, BitVec.ofNat_toNat]
  congr 1
  apply BitVec.eq_of_toNat_eq
  simp [Nat.shiftLeft_eq]

/-- The CR1 byte as a number: the type fills the bits below the level (R58, R71). -/
theorem cr1Byte_toNat (avgSel : BitVec 8) (tcType : BitVec 4) :
    (cr1Byte avgSel tcType).toNat = level avgSel.toNat * 16 + tcType.toNat := by
  have hlevel := level_lt avgSel
  have htype : tcType.toNat < 16 := tcType.isLt
  rw [cr1Byte, BitVec.toNat_ofNat, Nat.or_comm, ← Nat.shiftLeft_add_eq_or_of_lt tcType.isLt, Nat.shiftLeft_eq]
  omega

/-- The level stands in bits 6:4 of the CR1 byte (R58, R71). -/
theorem cr1Byte_levelField (avgSel : BitVec 8) (tcType : BitVec 4) :
    ((zext32 (cr1Byte avgSel tcType)).extractLsb' 4 3).toNat = level avgSel.toNat := by
  have hlevel := level_lt avgSel
  have htype : tcType.toNat < 16 := tcType.isLt
  rw [BitVec.extractLsb'_toNat, zext32, BitVec.toNat_setWidth, cr1Byte_toNat, Nat.shiftRight_eq_div_pow]
  omega

/-- BUILD_CR1 looks at the count through its level only (R71, R73). -/
theorem exec_buildCr1_congr {a b : BitVec 8} (h : level a.toNat = level b.toNat) (tcType : BitVec 4) (s : State) :
    exec (.buildCr1 a tcType) s = exec (.buildCr1 b tcType) s := by
  have hbyte : cr1Byte a tcType = cr1Byte b tcType := by rw [cr1Byte, cr1Byte, h]
  simp only [exec, execBuildCr1, hbyte]

/-! ## The set of faults -/

theorem mem_faultSet {k : FaultKind} {d : Word} : k ∈ faultSet d ↔ d.getLsbD (faultBit k) = true := by
  have hk : k ∈ allFaultKinds := by cases k <;> decide
  simp [faultSet, hk]

/-- Every bit of the Fault Status byte stands for a fault kind (R60). -/
theorem exists_faultBit_eq {n : Nat} (h : n < 8) : ∃ k, faultBit k = n :=
  ⟨allFaultKinds[n], by interval_cases n <;> rfl⟩

/-- The set of a fault byte is empty exactly when the byte is 0: every bit of it stands for a kind (R76). -/
theorem faultSet_zext32_eq_nil (sr : Byte) : faultSet (zext32 sr) = [] ↔ zext32 sr = 0#32 := by
  rw [List.eq_nil_iff_forall_not_mem]
  constructor
  · intro hempty
    have hsr : sr = 0#8 := by
      refine BitVec.eq_of_getLsbD_eq fun n hn => ?_
      obtain ⟨k, rfl⟩ := exists_faultBit_eq hn
      have hbit := mem_faultSet.not.1 (hempty k)
      have hn32 : faultBit k < 32 := by omega
      simpa [zext32, hn32] using hbit
    rw [hsr]; rfl
  · intro hzero k
    simp [mem_faultSet, hzero]

/-! ## The frame of an operation -/

/-- A response touches nothing around the block (R79, R94). -/
theorem respond_sameSurroundings (op : BitVec 4) (st : Status) (data : Word) (s : State) :
    SameSurroundings s (respond op st data s) := ⟨rfl, rfl, rfl, rfl, rfl, rfl, rfl, rfl, rfl⟩

end Sys2Proof.Machine

namespace Sys2Proof.Proofs

open Sys2Proof Sys2Proof.Machine

/-- Settles O24: the packing is that of `cr1Byte_eq_or`, the decode cases those of any defined OP. -/
theorem buildCr1Result : Obligations.BuildCr1Result := by
  refine ⟨fun avgSel tcType s => ?_, fun req hop => ?_⟩
  · rw [← cr1Byte_eq_or]; rfl
  · rw [← operands_buildCr1]; exact decode_of_op (o := .buildCr1) hop

/-- Settles O25. -/
theorem levelIsFloorOfLog2 : Obligations.LevelIsFloorOfLog2 := by
  refine ⟨fun a ha => ?_, fun a ha => ?_, fun a => Nat.le_of_lt_succ (level_lt a)⟩
  · interval_cases a <;> rfl
  · have hne : a ≠ 0 := by omega
    rw [level_eq_log2]
    exact ⟨Nat.log2_self_le hne, Nat.lt_log2_self⟩

/-- Settles O26: the two fields of a CR1 byte are its level and its type. -/
theorem cr1FieldsOfNamedCounts : Obligations.Cr1FieldsOfNamedCounts := by
  refine ⟨fun tc s a l h => ?_, fun a tc s => ⟨_, resultData_buildCr1 a tc s, cr1Byte_typeField a tc⟩⟩
  have hlevel : level a.toNat = l.toNat := by
    simp only [List.mem_cons, Prod.mk.injEq, List.not_mem_nil, or_false] at h
    obtain ⟨rfl, rfl⟩ | ⟨rfl, rfl⟩ | ⟨rfl, rfl⟩ | ⟨rfl, rfl⟩ | ⟨rfl, rfl⟩ := h <;> rfl
  exact ⟨_, resultData_buildCr1 a tc s, BitVec.eq_of_toNat_eq ((cr1Byte_levelField a tc).trans hlevel),
    cr1Byte_typeField a tc⟩

/-- Settles O27: both counts have level `k`. -/
theorem countsRoundDownToAPowerOfTwo : Obligations.CountsRoundDownToAPowerOfTwo := by
  refine ⟨fun a b k tc s hb hle hlt => ⟨_, rfl, exec_buildCr1_congr ?_ tc s, rfl⟩, rfl, rfl⟩
  rw [level_eq_of_le_of_lt hle hlt, hb, level_eq_of_le_of_lt le_rfl (Nat.pow_lt_pow_succ one_lt_two)]

/-- Settles O28: the level of a count from 32 up lies between 5 and 7. -/
theorem cr1LevelsAboveTheSourceRange : Obligations.Cr1LevelsAboveTheSourceRange := by
  refine ⟨fun a tc s ha => ⟨_, resultData_buildCr1 a tc s, ?_⟩, fun a tc s => ⟨_, resultData_buildCr1 a tc s, ?_⟩⟩
  · have hlevel : 5 ≤ level a.toNat := by
      rw [level_eq_log2]
      exact (Nat.le_log2 (by omega)).2 ha
    rw [← cr1Byte_levelField a tc] at hlevel
    have hmem : ∀ l : BitVec 3, 5 ≤ l.toNat → l ∈ [5#3, 6#3, 7#3] := by decide
    exact hmem _ hlevel
  · have hlt := cr1Byte_toNat_lt a tc
    rw [zext32, BitVec.toNat_setWidth]
    omega

/-- Settles O30: the statement's list is the bit table, and the set of a fault byte looks at each of its bits. -/
theorem faultSetIsReadOffTheBitTable : Obligations.FaultSetIsReadOffTheBitTable := by
  refine ⟨fun d k n h => ?_, fun sr s t h => ?_⟩
  · have htable : (k, n) ∈ allFaultKinds.map (fun k => (k, faultBit k)) := h
    obtain ⟨_, -, hpair⟩ := List.mem_map.1 htable
    cases hpair
    exact mem_faultSet
  · cases h
    exact faultSet_zext32_eq_nil sr

/-- Settles O22. -/
theorem buildCr0Result : Obligations.BuildCr0Result := by
  refine ⟨fun _ _ _ => rfl, fun req hop => ?_⟩
  rw [← operands_buildCr0]
  exact decode_of_op (o := .buildCr0) hop

/-- Settles O23. -/
theorem cr0BytesAreTheFourOfTheTable : Obligations.Cr0BytesAreTheFourOfTheTable := by
  refine ⟨fun s => ⟨rfl, rfl, rfl, rfl⟩, fun o f s d h => ?_⟩
  obtain rfl := Option.some.inj ((resultData_buildCr0 o f s).symm.trans h)
  cases o <;> cases f <;> decide

/-- Settles O29. -/
theorem decodeFaultResult : Obligations.DecodeFaultResult :=
  ⟨fun _ _ => rfl, fun _ hop => decode_of_op (o := .decodeFault) hop⟩

/-- Settles O39: every operation ends in `respond` with status OK. -/
theorem operationFrame : Obligations.OperationFrame := by
  intro i s t h
  obtain ⟨data, hexec, -⟩ := exec_eq_respond i s
  obtain rfl := Host.Outcome.next.inj (hexec.symm.trans h)
  exact ⟨respond_sameSurroundings _ _ _ s, rfl, rfl, rfl⟩

end Sys2Proof.Proofs

/-! # The temperature decoder (41_temperature.md): lemmas and proofs -/

namespace Sys2Proof.Machine

/-! ## The sign bit -/

/-- The sign bit is bit 7 (R7, R84, R90). -/
theorem signBit_eq_getLsbD (b : Byte) : signBit b = b.getLsbD 7 := by
  revert b; decide

/-! ## The cold junction -/

/-- The pseudocode of R81 with quotients for shifts. -/
theorem cjValue_eq (offset msb lsb : Byte) : cjValue offset msb lsb =
    if msb.getLsbD 7 then (((msb.toNat * 256 + lsb.toNat) / 4 : Nat) : Int) + (offset.toNat : Int) - 0x4000
    else (((msb.toNat * 256 + lsb.toNat) / 4 : Nat) : Int) + (offset.toNat : Int) := by
  rw [cjValue, cjField_eq, signBit_eq_getLsbD, Nat.cast_add]

/-- The cold-junction field is bits 15:2 of its two bytes (R61, R82). -/
theorem cjField_eq_toNat (msb lsb : Byte) : cjField msb lsb = ((msb ++ lsb).extractLsb' 2 14).toNat := by
  rw [BitVec.extractLsb'_toNat, toNat_append_eq_add, Nat.shiftRight_eq_div_pow, cjField_eq]
  omega

/-- The sign correction makes the field signed, and the offset is added unsigned (R83, R85). -/
theorem cjValue_eq_toInt_add (offset msb lsb : Byte) :
    cjValue offset msb lsb = ((msb ++ lsb).extractLsb' 2 14).toInt + (offset.toNat : Int) := by
  rw [cjField_toInt, cjValue]
  split <;> push_cast <;> ring

/-- The sign correction as a product with the sign bit (R85). -/
theorem cjValue_eq_toNat_add_sub (offset msb lsb : Byte) : cjValue offset msb lsb =
    (((msb ++ lsb).extractLsb' 2 14).toNat : Int) + (offset.toNat : Int) - 0x4000 * ((msb.getLsbD 7).toNat : Int) := by
  rw [cjValue, signBit_eq_getLsbD, ← cjField_eq_toNat]
  cases msb.getLsbD 7 <;> simp

/-- With the sign bit clear the field is below 2^13, and the offset adds at most 255 (R86). -/
theorem cjValue_range_of_signBit_clear {offset msb lsb : Byte} (h : msb.getLsbD 7 = false) :
    0 ≤ cjValue offset msb lsb ∧ cjValue offset msb lsb ≤ 8446 := by
  have hmsb : ¬ 128 ≤ msb.toNat := by rwa [← signBit_eq_getLsbD, signBit_eq, decide_eq_false_iff_not] at h
  rw [cjValue_eq, h, if_neg Bool.false_ne_true]
  omega

/-- With the sign bit set the field is below 2^14 and loses 2^14; the offset adds at most 255 (R86). -/
theorem cjValue_range_of_signBit_set {offset msb lsb : Byte} (h : msb.getLsbD 7 = true) :
    -8192 ≤ cjValue offset msb lsb ∧ cjValue offset msb lsb ≤ 254 := by
  refine ⟨(cjValue_range offset msb lsb).1, ?_⟩
  rw [cjValue_eq, if_pos h]
  omega

/-- The low two bits of lsb are shifted out of the field (R82, R87). -/
theorem cjField_congr (msb : Byte) {lsb lsb' : Byte} (h : lsb.extractLsb' 2 6 = lsb'.extractLsb' 2 6) :
    cjField msb lsb = cjField msb lsb' := by
  have hbits := congrArg BitVec.toNat h
  simp only [BitVec.extractLsb'_toNat, Nat.shiftRight_eq_div_pow] at hbits
  rw [cjField_eq, cjField_eq]
  omega

theorem resultData_decodeCj (offset msb lsb : Byte) (s : State) :
    resultData (.decodeCj offset msb lsb) s = some (sext32 (cjValue offset msb lsb)) := rfl

theorem sext32_cjValue_toInt (offset msb lsb : Byte) :
    (sext32 (cjValue offset msb lsb)).toInt = cjValue offset msb lsb := by
  obtain ⟨hl, hu⟩ := cjValue_range offset msb lsb
  exact sext32_toInt (by omega) (by omega)

/-- The data word DECODE_CJ answers with stands for its value (R10, R81). -/
theorem rspData_toInt_of_decodeCj {offset msb lsb : Byte} {s t : State}
    (h : exec (.decodeCj offset msb lsb) s = .next t) : t.rspData.toInt = cjValue offset msb lsb := by
  cases h
  exact sext32_cjValue_toInt offset msb lsb

/-- The range of R86 in degrees. -/
theorem cjCelsius_range {data : Word} (hl : -8192 ≤ data.toInt) (hu : data.toInt ≤ 8446) :
    -128 ≤ cjCelsius data ∧ cjCelsius data ≤ 13196875 / 100000 := by
  have hl' : (-8192 : Rat) ≤ data.toInt := by exact_mod_cast hl
  have hu' : (data.toInt : Rat) ≤ 8446 := by exact_mod_cast hu
  rw [cjCelsius, Config.lsbCj]
  constructor <;> linarith

/-! ## The thermocouple -/

/-- The pseudocode of R88 with quotients for shifts. -/
theorem tcValue_eq (high mid low : Byte) : tcValue high mid low =
    if high.getLsbD 7 then
      (((high.toNat * 65536 + mid.toNat * 256 + low.toNat) / 32 : Nat) : Int) - 0x80000
    else (((high.toNat * 65536 + mid.toNat * 256 + low.toNat) / 32 : Nat) : Int) := by
  rw [tcValue, tcField_eq, signBit_eq_getLsbD]

/-- The thermocouple field is bits 23:5 of its three bytes (R62, R89). -/
theorem tcField_eq_toNat (high mid low : Byte) :
    tcField high mid low = ((high ++ mid ++ low).extractLsb' 5 19).toNat := by
  rw [BitVec.extractLsb'_toNat, toNat_append_eq_add, toNat_append_eq_add, Nat.shiftRight_eq_div_pow, tcField_eq]
  omega

/-- The sign correction makes the field signed (R90). -/
theorem tcValue_eq_toInt (high mid low : Byte) :
    tcValue high mid low = ((high ++ mid ++ low).extractLsb' 5 19).toInt := by
  rw [tcField_toInt, tcValue]

/-- The sign correction as a product with the sign bit (R90). -/
theorem tcValue_eq_toNat_sub (high mid low : Byte) : tcValue high mid low =
    (((high ++ mid ++ low).extractLsb' 5 19).toNat : Int) - 0x80000 * ((high.getLsbD 7).toNat : Int) := by
  rw [tcValue, signBit_eq_getLsbD, ← tcField_eq_toNat]
  cases high.getLsbD 7 <;> simp

/-- The low five bits are shifted out of the field (R89, R92). -/
theorem tcField_congr (high mid : Byte) {low low' : Byte} (h : low.extractLsb' 5 3 = low'.extractLsb' 5 3) :
    tcField high mid low = tcField high mid low' := by
  have hbits := congrArg BitVec.toNat h
  simp only [BitVec.extractLsb'_toNat, Nat.shiftRight_eq_div_pow] at hbits
  rw [tcField_eq, tcField_eq]
  omega

theorem resultData_decodeTc (high mid low : Byte) (s : State) :
    resultData (.decodeTc high mid low) s = some (sext32 (tcValue high mid low)) := rfl

/-- The data word DECODE_TC answers with stands for its value (R10, R88). -/
theorem rspData_toInt_of_decodeTc {high mid low : Byte} {s t : State}
    (h : exec (.decodeTc high mid low) s = .next t) : t.rspData.toInt = tcValue high mid low := by
  obtain ⟨hl, hu⟩ := tcValue_range high mid low
  cases h
  exact sext32_toInt (by omega) (by omega)

/-- The range of R91 in degrees. -/
theorem tcCelsius_range {data : Word} (hl : -262144 ≤ data.toInt) (hu : data.toInt ≤ 262143) :
    -2048 ≤ tcCelsius data ∧ tcCelsius data ≤ 20479921875 / 10000000 := by
  have hl' : (-262144 : Rat) ≤ data.toInt := by exact_mod_cast hl
  have hu' : (data.toInt : Rat) ≤ 262143 := by exact_mod_cast hu
  rw [tcCelsius, Config.lsbTc]
  constructor <;> linarith

end Sys2Proof.Machine

namespace Sys2Proof.Proofs

open Sys2Proof Sys2Proof.Machine

/-- Settles O31: the value is that of `cjValue_eq`, the decode cases those of any defined OP. -/
theorem decodeCjResult : Obligations.DecodeCjResult := by
  refine ⟨fun offset msb lsb s => ?_, fun _ hop => decode_of_op (o := .decodeCj) hop⟩
  intro raw v
  have hv : cjValue offset msb lsb = v := cjValue_eq offset msb lsb
  rw [← hv]; rfl

/-- Settles O32: the data word stands for `cjValue`, which has both closed forms. -/
theorem coldJunctionClosedForm : Obligations.ColdJunctionClosedForm := by
  intro offset msb lsb s t h
  have hdata := rspData_toInt_of_decodeCj h
  exact ⟨hdata.trans (cjValue_eq_toNat_add_sub offset msb lsb),
    hdata.trans (cjValue_eq_toInt_add offset msb lsb), rfl⟩

/-- Settles O33: the ranges are those of `cjValue`, and the extremes are computed. -/
theorem coldJunctionRange : Obligations.ColdJunctionRange := by
  refine ⟨fun offset msb lsb s t h => ?_, fun s => ⟨rfl, rfl⟩⟩
  have hdata := rspData_toInt_of_decodeCj h
  obtain ⟨hl, hu⟩ := cjValue_range offset msb lsb
  refine ⟨fun hsign => ?_, fun hsign => ?_, cjCelsius_range (hdata ▸ hl) (hdata ▸ hu)⟩ <;> rw [hdata]
  · exact cjValue_range_of_signBit_clear hsign
  · exact cjValue_range_of_signBit_set hsign

/-- Settles O34: the value depends on lsb through the field, and is the signed field plus the offset. -/
theorem coldJunctionCornerCases : Obligations.ColdJunctionCornerCases := by
  refine ⟨fun offset msb lsb lsb' s h => ?_, fun offset msb lsb s => ?_, fun s => ⟨rfl, rfl, rfl, rfl⟩⟩
  · rw [resultData_decodeCj, resultData_decodeCj, cjValue, cjValue, cjField_congr msb h]
  · have hzero : cjValue 0 msb lsb = ((msb ++ lsb).extractLsb' 2 14).toInt :=
      (cjValue_eq_toInt_add 0 msb lsb).trans (Int.add_zero _)
    refine ⟨_, _, resultData_decodeCj 0 msb lsb s, resultData_decodeCj offset msb lsb s, ?_, ?_⟩
    · rw [sext32_cjValue_toInt, hzero]
    · rw [sext32_cjValue_toInt, sext32_cjValue_toInt, hzero, cjValue_eq_toInt_add]

/-- Settles O35: the value is that of `tcValue_eq`, the decode cases those of any defined OP. -/
theorem decodeTcResult : Obligations.DecodeTcResult := by
  refine ⟨fun high mid low s => ?_, fun _ hop => decode_of_op (o := .decodeTc) hop⟩
  intro raw v
  have hv : tcValue high mid low = v := tcValue_eq high mid low
  rw [← hv]; rfl

/-- Settles O36: the data word stands for `tcValue`, which has both closed forms. -/
theorem thermocoupleClosedForm : Obligations.ThermocoupleClosedForm := by
  intro high mid low s t h
  have hdata := rspData_toInt_of_decodeTc h
  exact ⟨hdata.trans (tcValue_eq_toNat_sub high mid low), hdata.trans (tcValue_eq_toInt high mid low), rfl⟩

/-- Settles O37: the range is that of `tcValue`, and the extremes are computed. -/
theorem thermocoupleRange : Obligations.ThermocoupleRange := by
  refine ⟨fun high mid low s t h => ?_, fun s => ⟨rfl, rfl⟩⟩
  obtain ⟨hl, hu⟩ := tcValue_range high mid low
  rw [← rspData_toInt_of_decodeTc h] at hl hu
  exact ⟨hl, hu, tcCelsius_range hl hu⟩

/-- Settles O38: the value depends on low through the field. -/
theorem thermocoupleCornerCases : Obligations.ThermocoupleCornerCases := by
  refine ⟨fun high mid low low' s h => ?_, fun s => ⟨rfl, rfl, rfl, rfl⟩⟩
  rw [resultData_decodeTc, resultData_decodeTc, tcValue, tcValue, tcField_congr high mid h]

end Sys2Proof.Proofs

/-! # Statuses, agents' own results and faults (60_exceptions.md): lemmas and proofs -/

namespace Sys2Proof.Machine

/-! ## Defined and reserved OPs -/

/-- The codes of the operations are the defined OPs (R47). -/
theorem opcode_code_mem (o : Opcode) : o.code ∈ [0x1#4, 0x2#4, 0x3#4, 0x4#4, 0x5#4] := by
  cases o <;> decide

/-- Every other OP is reserved (R47). -/
theorem opcode_ofCode_eq_none {c : BitVec 4} (h : c ∉ [0x1#4, 0x2#4, 0x3#4, 0x4#4, 0x5#4]) :
    Opcode.ofCode c = none := by
  cases hop : Opcode.ofCode c with
  | none => rfl
  | some o => exact absurd (opcode_ofCode_eq_some.1 hop ▸ opcode_code_mem o) h

/-- A reserved OP is ILLEGAL_OP, whatever the other fields (R97). -/
theorem decode_of_reserved_op {req : Word} (h : Opcode.ofCode (Fields.ofWord req).op = none) :
    decode req = .rejected .illegalOp := by
  simp [decode, classify, h]

/-- What stands in a table with one row for each operation is some operation's row. -/
theorem exists_opcode_of_mem {α : Type} {f : Opcode → α} {x : α}
    (h : x ∈ opcodeTable.map (fun r => f r.opcode)) : ∃ o, f o = x := by
  obtain ⟨r, -, hr⟩ := List.mem_map.1 h
  exact ⟨r.opcode, hr⟩

/-! ## A waiting request by what it decodes to -/

/-- A step with a rejected word waiting is the error response of R101. -/
theorem step_of_rejected {s : State} {a : Agent} {req : Word} {rest : List HostInput} {st : Status}
    (h : s.inputs = .action (.request a req) :: rest) (hdec : decode req = .rejected st) :
    step s = .next (respond (Fields.ofWord req).op st 0#32 { s with inputs := rest, issuer := a }) := by
  rw [step_eq_perform h, perform, serve, hdec]
  rfl

/-- A step with a word waiting that decodes answers it OK (R102). -/
theorem step_of_decoded {s : State} {a : Agent} {req : Word} {rest : List HostInput} {i : Instr}
    (h : s.inputs = .action (.request a req) :: rest) (hdec : decode req = .instr i) :
    ∃ data, step s = .next (respond i.opcode.code .ok data { s with inputs := rest, issuer := a }) := by
  obtain ⟨data, hexec, -⟩ := exec_eq_respond i { s with inputs := rest, issuer := a }
  exact ⟨data, by rw [step_eq_perform h, perform, serve_of_decode hdec, hexec]⟩

/-! ## An agent's own pair -/

/-- A pair handed to another agent is passed over (R109). -/
theorem latestFor_cons_of_ne {a : Agent} {r : Response} (h : r.agent ≠ a) (rs : List Response) :
    latestFor a (r :: rs) = latestFor a rs := by
  simp [latestFor, h]

/-- The pair just handed to an agent is its last. -/
theorem latestFor_cons_self (r : Response) (rs : List Response) : latestFor r.agent (r :: rs) = some r :=
  latestFor_of_newer (newer := []) (by simp) rfl

/-! ## Writing a result to the device -/

/-- Without a pair of its own an agent has no result to write (R21). -/
theorem busWriteResult_of_none {a : Agent} {s : State} (h : latestFor a s.returned = none) :
    busWriteResult a s = .fault .noResult := by
  rw [busWriteResult, h]

/-- An error pair is no result to write (R101). -/
theorem busWriteResult_of_error {a : Agent} {r : Response} {s : State} (h : latestFor a s.returned = some r)
    (hst : r.status ≠ .ok) : busWriteResult a s = .fault .errorDataUsed := by
  simp [busWriteResult, h, hst]

/-- An OK pair's low byte goes on the bus (R116). -/
theorem busWriteResult_of_ok {a : Agent} {r : Response} {s : State} (h : latestFor a s.returned = some r)
    (hst : r.status = .ok) : busWriteResult a s = busStep a (.write (r.data.extractLsb' 0 8)) s := by
  simp [busWriteResult, h, hst, BitVec.setWidth_eq_extractLsb']

theorem writeEffect_busLog (r : DevReg) (v : Byte) (s : State) : (writeEffect r v s).busLog = s.busLog :=
  (congrArg State.busLog (writeEffect_of_frame r v s s.bus s.busLog) :)

/-- In the data phase of a write the agent's own OK result is logged and lands, and the block stays. -/
theorem step_busWriteResult_lands {s : State} {a : Agent} {rest : List HostInput} {p : Response} {r : DevReg}
    (h : s.inputs = .action (.busWriteResult a) :: rest) (hp : latestFor a s.returned = some p)
    (hst : p.status = .ok) (hbus : s.bus = .writing a r) :
    ∃ t u, step s = .next t ∧ t.bus = .done a .written ∧ t.busLog = .write (p.data.extractLsb' 0 8) :: s.busLog ∧
      t.device = (writeEffect r (p.data.extractLsb' 0 8) u).device ∧ u.device = s.device ∧ SameBlock s t := by
  have hstep := (step_eq_perform h).trans (busWriteResult_of_ok (s := { s with inputs := rest }) hp hst)
  have hwrite := busStep_value (v := p.data.extractLsb' 0 8) (s := { s with inputs := rest }) hbus
  exact ⟨_, _, hstep.trans hwrite, rfl, writeEffect_busLog r _ _, rfl, rfl,
    SameBlock.trans (t := { s with inputs := rest }) ⟨rfl, rfl, rfl, rfl, rfl, rfl⟩ (busStep_sameBlock hwrite)⟩

/-! ## Reading Fault Status -/

/-- A read of Fault Status draws the register, whole or short (U12). -/
theorem readPhase_faultStatus_intact {got : Nat} (h : got ≤ 1) (a : Agent) (s : State) :
    readPhase a .faultStatus 1 (.intact got) s =
      .next { drawFaultStatus s with bus := .done a (.received ([s.device.faultStatus].take got)) } := by
  simp [readPhase, DevReg.readLength, deviceBytes, readEffect, h]

/-- A garbled read of Fault Status draws the register too. -/
theorem readPhase_faultStatus_garbled {bytes : List Byte} (h : bytes.length ≤ 1) (a : Agent) (s : State) :
    readPhase a .faultStatus 1 (.garbled bytes) s =
      .next { drawFaultStatus s with bus := .done a (.received bytes) } := by
  simp [readPhase, DevReg.readLength, readEffect, h]

/-- A read of Fault Status that ends, whole, short, garbled or cut, draws the register (U12, log entry 16). -/
theorem frameStep_of_reading_faultStatus {a o : Agent} {b : BusAction} {s : State}
    (hbus : s.bus = .reading o .faultStatus)
    (hb : b = .csHigh ∨ (∃ got, got ≤ 1 ∧ b = .read 1 (.intact got)) ∨
      ∃ bytes, bytes.length ≤ 1 ∧ b = .read 1 (.garbled bytes)) :
    ∃ p res, frameStep a b s = .next { drawFaultStatus s with bus := p, transport := res } := by
  rcases hb with rfl | ⟨got, hgot, rfl⟩ | ⟨bytes, hlength, rfl⟩
  · rw [frameStep_csHigh_cut (by simp [hbus]) (by simp [hbus]), hbus]
    exact ⟨_, _, rfl⟩
  · exact ⟨_, s.transport, (frameStep_read hbus).trans (readPhase_faultStatus_intact hgot a s)⟩
  · exact ⟨_, s.transport, (frameStep_read hbus).trans (readPhase_faultStatus_garbled hlength a s)⟩

/-- A whole read of Fault Status returns the byte and draws the register, and draws nothing else (R31, U12). -/
theorem performAll_devRead_faultStatus {s : State} (hbus : s.bus = .idle) (a : Agent) :
    performAll (devRead a .faultStatus 1 (.intact 1)) s = .next { drawFaultStatus s with
      bus := .idle
      transport := .received [s.device.faultStatus]
      busLog := [.csHigh, .read 1 (.intact 1), .write (readAddressByte .faultStatus), .csLow] ++ s.busLog } := by
  rw [devRead, performAll_openRead hbus rfl, performAll_cons, perform, busStep_read rfl, readPhase_whole rfl,
    andThen_next, performAll_cons, perform, busStep_close rfl, andThen_next, performAll_nil]
  rfl

/-- The decode of one received byte is DECODE_FAULT of that byte (R35, R51). -/
theorem requestFor_decodeFault (b : Byte) : requestFor .decodeFault [b] = encode (.decodeFault b) := rfl

/-- A received fault byte is answered with itself (R75). -/
theorem serveReceived_decodeFault {s : State} {b : Byte} (h : s.transport = .received [b]) (a : Agent) :
    serveReceived a .decodeFault s = .next (respond Opcode.decodeFault.code .ok (zext32 b) { s with issuer := a }) := by
  have hbytes : receivedBytes s.transport = some [b] := by rw [h, receivedBytes]
  simp only [serveReceived, hbytes, requestFor_decodeFault]
  exact serve_of_decode (decode_encode (.decodeFault b)) a s

/-- A step with a call waiting is that call, on the state without it. -/
theorem step_eq_runCall {s : State} {a : Agent} {c : DriverCall} {rest : List HostInput}
    (h : s.inputs = .call a c :: rest) : step s = runCall a c { s with inputs := rest } := by
  simp only [step, h, handleInput]

/-- An admitted call is its plan, and then the driver's handle changes. -/
theorem runCall_of_admitted {a : Agent} {c : DriverCall} {s : State} (h : admission c s = none) :
    runCall a c s = andThen (performAll (callPlan a c) s)
      (fun t => .next { t with driver := driverAfter c t.driver }) := by
  rw [runCall, h]

/-- The driver's fault read from an idle bus: the read, and the response to the byte it returned (R121). -/
theorem runCall_readFault {s : State} {d : Driver} (hbus : s.bus = .idle) (hdriver : s.driver = some d) (a : Agent) :
    runCall a (.readFault (.intact 1)) s = .next (respond Opcode.decodeFault.code .ok (zext32 s.device.faultStatus)
      { drawFaultStatus s with
        issuer := a
        bus := .idle
        transport := .received [s.device.faultStatus]
        busLog := [.csHigh, .read 1 (.intact 1), .write (readAddressByte .faultStatus), .csLow] ++ s.busLog }) := by
  rw [runCall_of_admitted (by simp [admission, hdriver]), callPlan, performAll_append,
    performAll_devRead_faultStatus hbus, andThen_next, performAll_cons, perform, serveReceived_decodeFault rfl]
  rfl

end Sys2Proof.Machine

namespace Sys2Proof.Proofs

open Sys2Proof Sys2Proof.Machine

/-- Settles O16: the word is LENGTH by `decode_of_op`, for each operation alike. -/
theorem wrongCountAnswersLength : Obligations.WrongCountAnswersLength := by
  intro s a req rest op cnt h hrow hop hcnt
  obtain ⟨o, ho⟩ := exists_opcode_of_mem (f := fun o => (o.code, o.requiredCnt)) hrow
  cases ho
  rw [step_of_rejected h ((decode_of_op hop).1 hcnt), ← hop]
  rfl

/-- Settles O17: the word is RESERVED_FIELD by `decode_of_op`, for each operation alike. -/
theorem reservedBitAnswersReservedField : Obligations.ReservedBitAnswersReservedField := by
  intro s a req rest op cnt reserved h hrow hop hcnt hres
  obtain ⟨o, ho⟩ := exists_opcode_of_mem (f := fun o => (o.code, o.requiredCnt, o.reservedMask)) hrow
  cases ho
  rw [step_of_rejected h ((decode_of_op hop).2.1 hcnt hres), ← hop]
  rfl

/-- Settles O18: the word decodes to the operation, which answers OK on every operand. -/
theorem wellFormedRequestAnswersOk : Obligations.WellFormedRequestAnswersOk := by
  intro s a req rest op cnt reserved h hrow hop hcnt hres
  obtain ⟨o, ho⟩ := exists_opcode_of_mem (f := fun o => (o.code, o.requiredCnt, o.reservedMask)) hrow
  cases ho
  obtain ⟨data, hstep⟩ := step_of_decoded h ((decode_of_op hop).2.2 hcnt hres)
  rw [operands_opcode] at hstep
  exact ⟨data, hstep⟩

/-- Settles O43: the step puts the other agent's pair in front of the list. -/
theorem ownResponseOutlivesOtherAgentsRequests : Obligations.OwnResponseOutlivesOtherAgentsRequests := by
  intro s t a b req rest h hab hstep
  obtain ⟨st, data, hrespond⟩ := step_request_eq_respond req
  obtain rfl := Host.Outcome.next.inj ((hrespond s b rest h).symm.trans hstep)
  refine ⟨latestFor_cons_of_ne hab.symm s.returned, ?_⟩
  simpa using latestFor_cons_self ⟨b, st, data⟩ s.returned

/-- Settles O57: the agent's own last pair decides between the two faults and the write. -/
theorem deviceWriteTakesTheAgentsOwnResult : Obligations.DeviceWriteTakesTheAgentsOwnResult := by
  refine ⟨fun s a rest h hnone => ?_, fun s a rest newer older r h hreturned hnewer hr => ?_⟩
  · exact (step_eq_perform h).trans (busWriteResult_of_none (s := { s with inputs := rest }) (latestFor_eq_none hnone))
  have hlatest : latestFor a s.returned = some r := hreturned ▸ latestFor_of_newer hnewer hr
  refine ⟨fun hst => ?_, fun hst hbus => ?_, fun hst hbus => ?_⟩
  · exact (step_eq_perform h).trans (busWriteResult_of_error (s := { s with inputs := rest }) hlatest hst)
  · obtain ⟨t, u, hstep, hdone, hlog, hdevice, hu, hblock⟩ := step_busWriteResult_lands h hlatest hst hbus
    obtain ⟨hcr0, hcr1⟩ := writeEffect_cr0_registers (r.data.extractLsb' 0 8) u
    rw [← hdevice] at hcr0 hcr1
    exact ⟨t, hstep, hdone, hlog, hcr0, hu ▸ hcr1, hblock⟩
  · obtain ⟨t, u, hstep, hdone, hlog, hdevice, hu, hblock⟩ := step_busWriteResult_lands h hlatest hst hbus
    exact ⟨t, hstep, hdone, hlog, hdevice ▸ rfl, hu ▸ hdevice ▸ rfl, hblock⟩

/-- Settles O58: the call is `runCall_readFault`, and every way a single read ends draws the register. -/
theorem faultStatusIsFreeAfterARead : Obligations.FaultStatusIsFreeAfterARead := by
  refine ⟨fun s a rest d h hbus hdriver => ?_, fun s a b rest h hbus hb => ?_⟩
  · exact ⟨_, (step_eq_runCall h).trans (runCall_readFault (s := { s with inputs := rest }) hbus hdriver a),
      rfl, hdriver, rfl, rfl, rfl, rfl, rfl⟩
  · have hown : busOwner s.bus = some a := by simp [hbus, busOwner]
    obtain ⟨p, res, hframe⟩ := frameStep_of_reading_faultStatus (a := a)
      (s := { s with inputs := rest, busLog := b :: s.busLog }) hbus hb
    have hstep := (step_bus_of_own h (.inr hown)).trans hframe
    exact ⟨_, hstep, rfl, rfl, step_bus_sameBlock h hstep⟩

/-- Settles O3. -/
theorem idleStepChangesNothing : Obligations.IdleStepChangesNothing := by
  intro s h
  rw [step, h]

/-- Settles O9. -/
theorem statusCodesCoverAllTwoBitValues : Obligations.StatusCodesCoverAllTwoBitValues :=
  ⟨rfl, rfl, rfl, rfl, by decide, status_ofCode_code⟩

/-- Settles O15: a word with a reserved OP is ILLEGAL_OP by the first check. -/
theorem reservedOpAnswersIllegalOp : Obligations.ReservedOpAnswersIllegalOp := fun _ _ _ _ h hop =>
  step_of_rejected h (decode_of_reserved_op (opcode_ofCode_eq_none hop))

/-- Settles O59: the step is `conversionDone`, whose count of edges goes by whether DRDY was low. -/
theorem conversionUpdatesTheDeviceOnly : Obligations.ConversionUpdatesTheDeviceOnly := by
  intro s cj tc sr rest h
  rw [step_eq_perform h, perform, conversionDone]
  cases s.device.drdyLow <;> rfl

end Sys2Proof.Proofs

/-! # Reset, construction and the hazards of reads (70_reset_and_hazards.md): lemmas and proofs -/

namespace Sys2Proof.Machine

/-! ## CR0 bytes -/

/-- The continuous CR0 bytes (R68). -/
theorem cr0Byte_continuous (f50 : Bool) : cr0Byte false f50 = if f50 then 0x81#8 else 0x80#8 := by
  cases f50 <;> rfl

/-- Every byte of BUILD_CR0 is one of R68's. -/
theorem isCr0Byte_cr0Byte (oneShot f50 : Bool) : isCr0Byte (cr0Byte oneShot f50) = true := by
  cases oneShot <;> cases f50 <;> rfl

/-- A one-shot byte starts a conversion, so the temperature bytes are no longer to be relied on (R68, R118). -/
theorem writeDevice_oneShot (f50 : Bool) (d : Device) : writeDevice .cr0 (cr0Byte true f50) d =
    { d with cr0 := if f50 then 0x41#8 else 0x40#8, settled := false } := by
  cases f50 <;> simp [writeDevice, cr0Byte]

/-! ## Writing a block result to the device -/

/-- Writing the byte of the agent's own last pair is writing that byte (R32, R116). -/
theorem performAll_devWriteResult {a : Agent} {r : DevReg} {v : Byte} {s : State} (hbus : s.bus = .idle)
    (hr : r.writable = true) (hlatest : latestFor a s.returned = some ⟨a, .ok, zext32 v⟩) :
    performAll (devWriteResult a r) s = performAll (devWrite a r v) s := by
  rw [devWriteResult, devWrite, performAll_openWrite hbus hr, performAll_openWrite hbus hr, performAll_cons,
    performAll_cons, perform, perform, busWriteResult_of_ok (by exact hlatest) rfl,
    ← BitVec.setWidth_eq_extractLsb' (by decide), setWidth_zext32]

/-- An operation that answers with a byte, and the write of its result: the byte lands in the register (R44, R116). -/
theorem performAll_writeBlockByte {a : Agent} {i : Instr} {r : DevReg} {v : Byte} {s : State} (hbus : s.bus = .idle)
    (hr : r.writable = true) (hexec : ∀ u, exec i u = .next (respond i.opcode.code .ok (zext32 v) u)) :
    performAll (.request a (encode i) :: devWriteResult a r) s =
      .next { writeEffect r v (respond i.opcode.code .ok (zext32 v) { s with issuer := a }) with
        bus := .idle
        transport := .written
        busLog := [.csHigh, .write v, .write (writeAddressByte r), .csLow] ++ s.busLog } := by
  have hlatest : latestFor a (respond i.opcode.code .ok (zext32 v) { s with issuer := a }).returned =
      some ⟨a, .ok, zext32 v⟩ := latestFor_cons_self ⟨a, .ok, zext32 v⟩ s.returned
  rw [performAll_cons, perform, serve_of_decode (decode_encode i), hexec, andThen_next,
    performAll_devWriteResult (by exact hbus) hr hlatest, performAll_devWrite (by exact hbus) hr]
  rfl

/-! ## Construction and one-shot requests -/

/-- A call that is not admitted is refused (R103). -/
theorem runCall_of_refused {a : Agent} {c : DriverCall} {s : State} {r : Refusal} (h : admission c s = some r) :
    runCall a c s = .refused r := by
  rw [runCall, h]

theorem constructionCount_iff (avg : Byte) :
    constructionCount avg = true ↔ avg ∈ [1#8, 2#8, 4#8, 8#8, 16#8] := by
  simp [constructionCount, or_assoc]

theorem ofCode_isSome_iff (tc : BitVec 4) : (ThermocoupleType.ofCode tc).isSome = true ↔ tc.toNat < 8 := by
  revert tc; decide

/-- Construction takes the five counts and the eight codes, and no other (R103, C2). -/
theorem admission_construct (avg : Byte) (tc : BitVec 4) (s : State) : admission (.construct avg tc) s =
    if avg ∈ [1#8, 2#8, 4#8, 8#8, 16#8] ∧ tc.toNat < 8 then none else some .invalidConfiguration := by
  simp only [admission, Bool.and_eq_true, constructionCount_iff, ofCode_isSome_iff]

/-! ## Reads -/

/-- A register that is read finds as many bytes as its read has (R36). -/
theorem deviceBytes_length {r : DevReg} {n : Nat} (hr : r.readLength = some n) (s : State) :
    (deviceBytes r s).1.length = n := by
  cases r with
  | cr0 | cr1 => nomatch hr
  | coldJunction | thermocouple => cases hr; rw [deviceBytes]; split <;> rfl
  | faultStatus => cases hr; rfl

/-- Temperature bytes are free while the device is not settled (R118, U4). -/
theorem deviceBytes_unsettled {r : DevReg} (hr : r.readLength = some 3) {s : State} (h : s.device.settled = false) :
    (deviceBytes r s).1 =
      [Config.freeByte s.draws, Config.freeByte (s.draws + 1), Config.freeByte (s.draws + 2)] := by
  cases r with
  | cr0 | cr1 | faultStatus => nomatch hr
  | coldJunction | thermocouple => simp only [deviceBytes, h]; rfl

/-- A whole thermocouple read returns three bytes, and DRDY is high after it (R39). -/
theorem performAll_discardRead {s : State} (hbus : s.bus = .idle) (a : Agent) : ∃ k bytes, bytes.length = 3 ∧
    performAll (devRead a .thermocouple 3 (.intact 3)) s = .next { s with
      bus := .idle
      busLog := [.csHigh, .read 3 (.intact 3), .write 0x0C, .csLow] ++ s.busLog
      transport := .received bytes
      device := { s.device with drdyLow := false }
      draws := k } := by
  obtain ⟨k, hread⟩ := performAll_devRead (r := .thermocouple) hbus rfl a
  exact ⟨k, _, List.length_take_of_le (deviceBytes_length rfl s).ge, hread⟩

/-- A read inside the one-shot wait goes on, and returns free bytes. -/
theorem devRead_unsettled {r : DevReg} (hr : r.readLength = some 3) {s : State} (hbus : s.bus = .idle)
    (h : s.device.settled = false) (a : Agent) :
    ∃ t k, performAll (devRead a r 3 (.intact 3)) s = .next t ∧
      t.transport = .received [Config.freeByte k, Config.freeByte (k + 1), Config.freeByte (k + 2)] := by
  obtain ⟨_, hread⟩ := performAll_devRead hbus hr a
  rw [deviceBytes_unsettled hr h] at hread
  exact ⟨_, s.draws, hread, rfl⟩

theorem readEffect_driver (r : DevReg) (w : Bool) (s : State) : (readEffect r w s).driver = s.driver := by
  cases r <;> cases w <;> rfl

theorem deviceBytes_driver (r : DevReg) (s : State) : (deviceBytes r s).2.driver = s.driver := by
  obtain ⟨k, hk⟩ := deviceBytes_eq_draws r s
  rw [hk]

/-- The first `got` bytes of a register, delivered intact. -/
theorem readPhase_intact {r : DevReg} {n got : Nat} (hr : r.readLength = some n) (hgot : got ≤ n) (a : Agent)
    (s : State) : readPhase a r n (.intact got) s = .next { readEffect r (got == n) (deviceBytes r s).2 with
      bus := .done a (.received ((deviceBytes r s).1.take got)) } := by
  simp [readPhase, hr, hgot]

/-- A read delivered intact, whole or short, goes on from an idle bus with the bytes delivered and leaves the driver's
handle alone (R31, U2). -/
theorem devRead_intact {r : DevReg} {n got : Nat} {s : State} (hbus : s.bus = .idle) (hr : r.readLength = some n)
    (hgot : got ≤ n) (a : Agent) : ∃ t, performAll (devRead a r n (.intact got)) s = .next t ∧
      t.driver = s.driver ∧ t.transport = .received ((deviceBytes r s).1.take got) := by
  rw [devRead, performAll_openRead hbus hr, performAll_cons, perform, busStep_read rfl, readPhase_intact hr hgot,
    andThen_next, performAll_cons, perform, busStep_close rfl, andThen_next, performAll_nil]
  exact ⟨_, rfl, (readEffect_driver r _ _).trans (deviceBytes_driver r _),
    congrArg (fun bytes => TransportResult.received (bytes.take got)) (deviceBytes_of_frame r s _ _)⟩

/-! ## The decode of received bytes -/

theorem serveReceived_of_received {a : Agent} {o : Opcode} {bytes : List Byte} {s : State}
    (h : s.transport = .received bytes) : serveReceived a o s = serve a (requestFor o bytes) s := by
  simp only [serveReceived, h, receivedBytes]

theorem resultData_of_exec {i : Instr} {op : BitVec 4} {st : Status} {data : Word}
    {s : State} (h : exec i s = .next (respond op st data s)) : resultData i s = some data := by
  rw [resultData, h]; rfl

/-- The bytes of a settled thermocouple register make up the request that decodes them (R35, R53). -/
theorem requestFor_thermocouple {s : State} (h : s.device.settled = true) :
    requestFor .decodeTc (deviceBytes .thermocouple s).1 =
      encode (.decodeTc s.device.thermocouple.first s.device.thermocouple.second s.device.thermocouple.third) := by
  rw [deviceBytes, if_pos h]; rfl

/-- The bytes of the settled cold-junction registers make up the request that decodes them (R35, R52). -/
theorem requestFor_coldJunction {s : State} (h : s.device.settled = true) :
    requestFor .decodeCj (deviceBytes .coldJunction s).1 =
      encode (.decodeCj s.device.coldJunction.first s.device.coldJunction.second s.device.coldJunction.third) := by
  rw [deviceBytes, if_pos h]; rfl

/-- Fewer bytes than the operation takes are a LENGTH error (R98). -/
theorem serveReceived_of_few {o : Opcode} {bytes : List Byte} {s : State} (h : s.transport = .received bytes)
    (hfew : bytes.length < o.requiredCnt.toNat) (a : Agent) :
    serveReceived a o s = .next (respond o.code .length 0#32 { s with issuer := a }) := by
  have hfields := ofWord_toWord (Fields.mk o.code (BitVec.ofNat 2 bytes.length) 0
    (bytes.getD 0 0) (bytes.getD 1 0) (bytes.getD 2 0))
  have hop : (Fields.ofWord (requestFor o bytes)).op = o.code := congrArg Fields.op hfields
  have hcnt : (Fields.ofWord (requestFor o bytes)).cnt ≠ o.requiredCnt := fun hcnt => by
    have hlength := (congrArg Fields.cnt hfields).symm.trans hcnt
    have := congrArg BitVec.toNat hlength
    rw [BitVec.toNat_ofNat] at this
    omega
  rw [serveReceived_of_received h, serve, (decode_of_op hop).1 hcnt, hop]
  rfl

/-- The first bytes of a register of three, decoded: fewer than three are LENGTH, three run the operation on them
(R35, R98). -/
theorem serveReceived_of_take {i : Instr} {bytes : List Byte} {got : Nat} {s : State} (hlength : bytes.length = 3)
    (hcnt : i.opcode.requiredCnt = 3#2) (hreq : requestFor i.opcode bytes = encode i) (hgot : got ≤ 3)
    (h : s.transport = .received (bytes.take got)) (a : Agent) :
    ∃ st data, serveReceived a i.opcode s = .next (respond i.opcode.code st data { s with issuer := a }) ∧
      (got < 3 → st = .length ∧ data = 0#32) ∧
      (got = 3 → st = .ok ∧ ∀ u, exec i u = .next (respond i.opcode.code .ok data u)) := by
  rcases hgot.lt_or_eq with hlt | rfl
  · have hfew : (bytes.take got).length < i.opcode.requiredCnt.toNat := by
      rw [List.length_take, hlength, hcnt]
      exact lt_of_le_of_lt (min_le_left got 3) hlt
    exact ⟨.length, 0#32, serveReceived_of_few h hfew a, fun _ => ⟨rfl, rfl⟩, fun heq => absurd heq hlt.ne⟩
  · obtain ⟨data, -, hexec⟩ := exec_eq_respond i s
    rw [List.take_of_length_le hlength.le] at h
    refine ⟨.ok, data, ?_, fun hlt => absurd hlt (lt_irrefl 3), fun _ => ⟨rfl, hexec⟩⟩
    rw [serveReceived_of_received h, hreq, serve_of_decode (decode_encode i), hexec]

theorem sext32_tcValue_toInt (high mid low : Byte) : (sext32 (tcValue high mid low)).toInt = tcValue high mid low := by
  obtain ⟨hl, hu⟩ := tcValue_range high mid low
  exact sext32_toInt (by omega) (by omega)

/-- A driver call that reads three bytes, decodes what was delivered and keeps the handle. -/
theorem runCall_readAndDecode {a : Agent} {c : DriverCall} {r : DevReg} {i : Instr} {got : Nat} {s : State} {d : Driver}
    {result : Word} (hplan : callPlan a c = devRead a r 3 (.intact got) ++ [.requestReceived a i.opcode])
    (hadmitted : admission c s = none) (hkeeps : ∀ h, driverAfter c h = h) (hbus : s.bus = .idle)
    (hdriver : s.driver = some d) (hr : r.readLength = some 3) (hcnt : i.opcode.requiredCnt = 3#2)
    (hreq : requestFor i.opcode (deviceBytes r s).1 = encode i) (hresult : resultData i s = some result)
    (hgot : got ≤ 3) :
    ∃ t, runCall a c s = .next t ∧ t.driver = some d ∧ t.rspOp = i.opcode.code ∧
      (got < 3 → t.rspStatus = 0b10#2 ∧ t.rspData = 0#32) ∧
      (got = 3 → t.rspStatus = 0b00#2 ∧ t.rspData = result) := by
  obtain ⟨u, hread, hu, htransport⟩ := devRead_intact hbus hr hgot a
  obtain ⟨st, data, hserve, hshort, hwhole⟩ :=
    serveReceived_of_take (deviceBytes_length hr s) hcnt hreq hgot htransport a
  refine ⟨respond i.opcode.code st data { u with issuer := a }, ?_, hu.trans hdriver, rfl, fun hlt => ?_,
    fun heq => ?_⟩
  · rw [runCall_of_admitted hadmitted, hplan, performAll_append, hread, andThen_next, performAll_cons, perform, hserve]
    simp only [andThen_next, performAll_nil, hkeeps]
  · obtain ⟨rfl, rfl⟩ := hshort hlt
    exact ⟨rfl, rfl⟩
  · obtain ⟨rfl, hexec⟩ := hwhole heq
    exact ⟨rfl, Option.some.inj ((resultData_of_exec (hexec s)).symm.trans hresult)⟩

end Sys2Proof.Machine

namespace Sys2Proof.Proofs

open Sys2Proof Sys2Proof.Machine

/-- Settles O53: the discard read clears DRDY, and the continuous byte is the agent's own BUILD_CR0 result. -/
theorem drdySetupDiscardsThenEnablesContinuous : Obligations.DrdySetupDiscardsThenEnablesContinuous := by
  intro s a f50 rest d h hbus hdriver
  obtain ⟨k, bytes, hlength, hread⟩ := performAll_discardRead (s := { s with inputs := rest }) hbus a
  rw [step_eq_runCall h, runCall_of_admitted (by simp [admission, hdriver]), callPlan, performAll_append, hread,
    andThen_next, performAll_writeBlockByte rfl rfl (fun _ => rfl), writeEffect_cr0 (isCr0Byte_cr0Byte false f50),
    ← cr0Byte_continuous]
  refine ⟨_, rfl, rfl, rfl, rfl, rfl, congrArg (Option.map _) hdriver, rfl, fun _ _ _ => rfl, bytes, hlength, ?_⟩
  rw [setupDrdyCore, performAll_append, hread, andThen_next, performAll_cons, perform,
    serve_of_decode (decode_encode _)]
  exact congrArg (fun v => some (bytes, v)) (setWidth_zext32 (cr0Byte false f50))

/-- Settles O54: construction is admitted by `admission_construct`, and each call writes its block result. -/
theorem constructionAndOneShotTransitions : Obligations.ConstructionAndOneShotTransitions := by
  refine ⟨fun s a avg tc rest h hbus havg htc => ?_, fun s a f50 rest d h hbus hdriver => ?_,
    fun s a avg tc rest h hinvalid => ?_⟩
  · have hadmitted : admission (.construct avg tc) { s with inputs := rest } = none := by
      rw [admission_construct, if_pos ⟨havg, htc⟩]
    have hwrite := performAll_writeBlockByte (a := a) (i := .buildCr1 avg tc) (r := .cr1)
      (s := { s with inputs := rest }) hbus rfl (fun _ => rfl)
    rw [step_eq_runCall h, runCall_of_admitted hadmitted, callPlan, hwrite]
    exact ⟨_, rfl, rfl, rfl, rfl⟩
  · have hwrite := performAll_writeBlockByte (a := a) (i := .buildCr0 true f50) (r := .cr0)
      (s := { s with inputs := rest }) hbus rfl (fun _ => rfl)
    rw [step_eq_runCall h, runCall_of_admitted (by simp [admission, hdriver]), callPlan, hwrite,
      writeEffect_cr0 (isCr0Byte_cr0Byte true f50)]
    exact ⟨_, rfl, rfl, writeDevice_oneShot f50 s.device, by simp [driverAfter, hdriver]⟩
  · rw [step_eq_runCall h]
    refine runCall_of_refused ?_
    rw [admission_construct, if_neg]
    rintro ⟨havg, htc⟩
    exact hinvalid.elim (fun hno => hno havg) htc.not_ge

/-- Settles O55: both reads are `runCall_readAndDecode`, and the results are the closed forms. -/
theorem temperatureReadsDecodeWithoutChangingMode : Obligations.TemperatureReadsDecodeWithoutChangingMode := by
  constructor <;> intro s a got rest d h hbus hdriver hsettled hgot
  · obtain ⟨t, hcall, hdriver, hop, hshort, hwhole⟩ := runCall_readAndDecode (a := a) (r := .thermocouple)
      (c := .readThermocouple (.intact got)) (i := .decodeTc _ _ _) (s := { s with inputs := rest }) rfl
      (by simp [admission, hdriver]) (fun _ => rfl) hbus hdriver rfl rfl (requestFor_thermocouple hsettled)
      (resultData_decodeTc _ _ _ s) hgot
    refine ⟨t, (step_eq_runCall h).trans hcall, hdriver, hop, hshort, fun heq => ?_⟩
    refine (hwhole heq).imp_right fun hdata => ?_
    rw [hdata, sext32_tcValue_toInt, tcValue_eq_toInt]
  · obtain ⟨t, hcall, hdriver, hop, hshort, hwhole⟩ := runCall_readAndDecode (a := a) (r := .coldJunction)
      (c := .readColdJunction (.intact got)) (i := .decodeCj _ _ _) (s := { s with inputs := rest }) rfl
      (by simp [admission, hdriver]) (fun _ => rfl) hbus hdriver rfl rfl (requestFor_coldJunction hsettled)
      (resultData_decodeCj _ _ _ s) hgot
    refine ⟨t, (step_eq_runCall h).trans hcall, hdriver, hop, hshort, fun heq => ?_⟩
    refine (hwhole heq).imp_right fun hdata => ?_
    rw [hdata, sext32_cjValue_toInt, cjValue_eq_toInt_add]

/-- Settles O56: a temperature read from a device that is not settled draws its bytes. -/
theorem readInsideTheOneShotWaitIsUnconstrained : Obligations.ReadInsideTheOneShotWaitIsUnconstrained :=
  fun _ a hbus hunsettled => ⟨devRead_unsettled rfl hbus hunsettled a, devRead_unsettled rfl hbus hunsettled a⟩

/-- Settles O2. -/
theorem resetInputSetsOnlyTheResponseRegisters : Obligations.ResetInputSetsOnlyTheResponseRegisters :=
  fun _ _ h => step_eq_perform h

end Sys2Proof.Proofs
